-- ==== Sys2Proof/Word.lean ====
section
/-! DEFINITION. The words of the block: bytes, transaction words, register addresses (spec R7, R11, R70). -/

namespace Sys2Proof

/-- A byte: the unit of every bus transaction and of every store write (R54). -/
abbrev Byte := BitVec 8

/-- A transaction word (R70). -/
abbrev Word := BitVec 16

/-- A host register address (R50). -/
abbrev RegAddr := BitVec 6

/-- An index into the state record, `A[3:0]` (R74). -/
abbrev RecIndex := BitVec 4

/-- A two-bit LED mode: bit 0 is the ON bit, bit 1 the FLASH bit (R26, R78). -/
abbrev LedMode := BitVec 2

/-- An address of the non-volatile store (R7). -/
abbrev StoreAddr := BitVec 16

end Sys2Proof
end

