-- ==== Sys2Proof/Syntax.lean ====
section
/-! DEFINITION. The block's operations: one constructor per row of spec/opcode_table.json, in the table's order, and the
four events of spec R73. -/

namespace Sys2Proof

/-- The operations of the block (R70, R90): host reads, host writes and events. -/
inductive Instr where
  | rdTick0
  | rdTick1
  | rdTick2
  | rdTick3
  | rdBtnState
  | rdOffState
  | rdPolarity
  | rdLedModeR
  | rdLedModeG
  | rdLedModeB
  | wrLedModeR (d : Byte)
  | wrLedModeG (d : Byte)
  | wrLedModeB (d : Byte)
  | rdFlashDiv
  | wrFlashDiv (d : Byte)
  | rdDutyR
  | rdDutyG
  | rdDutyB
  | rdFlashLevel
  | rdFlashStatus
  | rdFlashSub
  | rdNvCtrl
  | wrNvCtrl (d : Byte)
  | rdNvOffset
  | rdEvmask
  | wrEvmask (d : Byte)
  | rdDesired (i : RecIndex)
  | wrDesired (i : RecIndex) (d : Byte)
  | rdProgrammed (i : RecIndex)
  | evTick (b o : Bool)
  | evPwm
  | evNvnotify
  | evNvdone
deriving DecidableEq, Repr

/-- The four events (R73). -/
inductive Event where
  | tick
  | pwm
  | nvNotify
  | nvDone
deriving DecidableEq, Repr

/-- Why a word is no operation (R75, R85), with what the fault records (R211). -/
inductive DecodeError where
  /-- A reserved transaction word. -/
  | illegalWord (w : Word)
  /-- RD or WR of a reserved register address. -/
  | unmappedAccess (w : Word) (a : RegAddr)
  /-- WR of a read-only register. -/
  | readOnlyWrite (w : Word) (a : RegAddr)
deriving DecidableEq, Repr

/-- A host read: it returns one byte and writes nothing (R71, R203). -/
def Instr.isRead : Instr → Bool
  | .rdTick0 | .rdTick1 | .rdTick2 | .rdTick3 | .rdBtnState | .rdOffState | .rdPolarity
  | .rdLedModeR | .rdLedModeG | .rdLedModeB | .rdFlashDiv | .rdDutyR | .rdDutyG | .rdDutyB
  | .rdFlashLevel | .rdFlashStatus | .rdFlashSub | .rdNvCtrl | .rdNvOffset | .rdEvmask
  | .rdDesired _ | .rdProgrammed _ => true
  | .wrLedModeR _ | .wrLedModeG _ | .wrLedModeB _ | .wrFlashDiv _ | .wrNvCtrl _ | .wrEvmask _
  | .wrDesired _ _ | .evTick _ _ | .evPwm | .evNvnotify | .evNvdone => false

/-- A host write (R72). -/
def Instr.isWrite : Instr → Bool
  | .wrLedModeR _ | .wrLedModeG _ | .wrLedModeB _ | .wrFlashDiv _ | .wrNvCtrl _ | .wrEvmask _
  | .wrDesired _ _ => true
  | .rdTick0 | .rdTick1 | .rdTick2 | .rdTick3 | .rdBtnState | .rdOffState | .rdPolarity
  | .rdLedModeR | .rdLedModeG | .rdLedModeB | .rdFlashDiv | .rdDutyR | .rdDutyG | .rdDutyB
  | .rdFlashLevel | .rdFlashStatus | .rdFlashSub | .rdNvCtrl | .rdNvOffset | .rdEvmask
  | .rdDesired _ | .rdProgrammed _ | .evTick _ _ | .evPwm | .evNvnotify | .evNvdone => false

end Sys2Proof
end

