-- ==== Sys2Proof/WellFormed.lean ====
section
/-! DEFINITION. Which operations a launch with a record of `recN` bytes has (spec R82): the index of a record-window access
is below `REC_N`. Every other operand field is legal at every value (R74, R78, R86). -/

namespace Sys2Proof

/-- The operation exists in a launch whose `REC_N` is `recN` (R76, R82). -/
def Instr.wf (recN : Nat) : Instr → Bool
  | .rdDesired i => decide (i.toNat < recN)
  | .wrDesired i _ => decide (i.toNat < recN)
  | .rdProgrammed i => decide (i.toNat < recN)
  | .rdTick0 | .rdTick1 | .rdTick2 | .rdTick3 | .rdBtnState | .rdOffState | .rdPolarity
  | .rdLedModeR | .rdLedModeG | .rdLedModeB | .wrLedModeR _ | .wrLedModeG _ | .wrLedModeB _
  | .rdFlashDiv | .wrFlashDiv _ | .rdDutyR | .rdDutyG | .rdDutyB | .rdFlashLevel | .rdFlashStatus
  | .rdFlashSub | .rdNvCtrl | .wrNvCtrl _ | .rdNvOffset | .rdEvmask | .wrEvmask _
  | .evTick _ _ | .evPwm | .evNvnotify | .evNvdone => true

end Sys2Proof
end

