-- ==== Sys2Proof/Decode.lean ====
section
/-! DEFINITION. Decoding of a transaction word (spec R75, over the register map R76), total on all words, and the encoder
(R71 to R73, R90). -/

namespace Sys2Proof

/-- The kind field `K = w[15:14]` (R70). -/
def wordKind (w : Word) : BitVec 2 := w.extractLsb' 14 2

/-- The register address `A = w[13:8]` of a RD or WR word (R71, R72). -/
def wordAddr (w : Word) : RegAddr := w.extractLsb' 8 6

/-- The data byte `D = w[7:0]` (R72). -/
def wordData (w : Word) : Byte := w.extractLsb' 0 8

/-- The event code `E = w[13:10]` of an EV word (R73). -/
def wordEvent (w : Word) : BitVec 4 := w.extractLsb' 10 4

/-- The bits `w[9:2]` of an EV word, which must be 0 (R73). -/
def wordEventReserved (w : Word) : BitVec 8 := w.extractLsb' 2 8

/-- The pin field `P = w[1:0]` of an EV word (R73). -/
def wordPins (w : Word) : BitVec 2 := w.extractLsb' 0 2

/-- The fixed-address rows of the register map, as read (R76). Every register is readable. -/
def readRows : List (RegAddr × Instr) :=
  [(0x00, .rdTick0), (0x01, .rdTick1), (0x02, .rdTick2), (0x03, .rdTick3), (0x04, .rdBtnState),
   (0x05, .rdOffState), (0x06, .rdPolarity), (0x08, .rdLedModeR), (0x09, .rdLedModeG),
   (0x0A, .rdLedModeB), (0x0B, .rdFlashDiv), (0x0C, .rdDutyR), (0x0D, .rdDutyG), (0x0E, .rdDutyB),
   (0x0F, .rdFlashLevel), (0x10, .rdFlashStatus), (0x11, .rdFlashSub), (0x12, .rdNvCtrl),
   (0x13, .rdNvOffset), (0x14, .rdEvmask)]

/-- The fixed-address rows of the register map marked RW, as written with the byte `d` (R76). -/
def writeRows (d : Byte) : List (RegAddr × Instr) :=
  [(0x08, .wrLedModeR d), (0x09, .wrLedModeG d), (0x0A, .wrLedModeB d), (0x0B, .wrFlashDiv d),
   (0x12, .wrNvCtrl d), (0x14, .wrEvmask d)]

/-- The read of address `a`, where it is mapped (R76, R82): `0x20 + i` is DESIRED[i] and `0x30 + i` is PROGRAMMED[i],
each for `i < REC_N`. -/
def readAt (recN : Nat) (a : RegAddr) : Option Instr :=
  let window := a.extractLsb' 4 2
  let i : RecIndex := a.extractLsb' 0 4
  if window = 0b10 then
    if i.toNat < recN then some (.rdDesired i) else none
  else if window = 0b11 then
    if i.toNat < recN then some (.rdProgrammed i) else none
  else readRows.lookup a

/-- The write of address `a`, where it is writable (R76, R82). -/
def writeAt (recN : Nat) (a : RegAddr) (d : Byte) : Option Instr :=
  let window := a.extractLsb' 4 2
  let i : RecIndex := a.extractLsb' 0 4
  if window = 0b10 then
    if i.toNat < recN then some (.wrDesired i d) else none
  else (writeRows d).lookup a

/-- `mapped(A)` (R76): exactly the rows not marked reserved; every register is readable. -/
def mapped (recN : Nat) (a : RegAddr) : Bool := (readAt recN a).isSome

/-- `writable(A)` (R76): exactly the RW rows. -/
def writable (recN : Nat) (a : RegAddr) : Bool := (writeAt recN a 0).isSome

/-- The event of an EV word (R73, R75): a code from 0b0100 on, a nonzero `w[9:2]`, or pins on another event than TICK
make the word illegal. -/
def decodeEvent (w : Word) : Except DecodeError Instr :=
  if 0b0100 ≤ (wordEvent w).toNat ∨ wordEventReserved w ≠ 0 then .error (.illegalWord w)
  else if wordEvent w = 0b0000 then .ok (.evTick ((wordPins w).getLsbD 0) ((wordPins w).getLsbD 1))
  else if wordPins w ≠ 0 then .error (.illegalWord w)
  else if wordEvent w = 0b0001 then .ok .evPwm
  else if wordEvent w = 0b0010 then .ok .evNvnotify
  else .ok .evNvdone

/-- The operation a word stands for in a launch whose `REC_N` is `recN`, or the first fault that applies, in the order of
R75 (R220). -/
def decode (recN : Nat) (w : Word) : Except DecodeError Instr :=
  if wordKind w = 0b11 then .error (.illegalWord w)
  else if wordKind w = 0b10 then decodeEvent w
  else if wordKind w = 0b00 ∧ wordData w ≠ 0 then .error (.illegalWord w)
  else
    match readAt recN (wordAddr w) with
    | none => .error (.unmappedAccess w (wordAddr w))
    | some rd =>
      if wordKind w = 0b00 then .ok rd
      else
        match writeAt recN (wordAddr w) (wordData w) with
        | none => .error (.readOnlyWrite w (wordAddr w))
        | some wr => .ok wr

/-- `rd A` = `0x0000 | A<<8` (R71, R90). -/
def rdWord (a : RegAddr) : Word := 0b00#2 ++ a ++ 0x00#8

/-- `wr A, d` = `0x4000 | A<<8 | d` (R72, R90). -/
def wrWord (a : RegAddr) (d : Byte) : Word := 0b01#2 ++ a ++ d

/-- An EV word with event code `e` and pin field `p` (R73). -/
def evWord (e : BitVec 4) (p : BitVec 2) : Word := 0b10#2 ++ e ++ 0x00#8 ++ p

/-- The address of DESIRED[i], `0b10iiii` (R74). -/
def desiredAddr (i : RecIndex) : RegAddr := 0b10#2 ++ i

/-- The address of PROGRAMMED[i], `0b11iiii` (R74). -/
def programmedAddr (i : RecIndex) : RegAddr := 0b11#2 ++ i

/-- The word of an operation (R90 and the rows of spec/opcode_table.json). -/
def encode : Instr → Word
  | .rdTick0 => rdWord 0x00
  | .rdTick1 => rdWord 0x01
  | .rdTick2 => rdWord 0x02
  | .rdTick3 => rdWord 0x03
  | .rdBtnState => rdWord 0x04
  | .rdOffState => rdWord 0x05
  | .rdPolarity => rdWord 0x06
  | .rdLedModeR => rdWord 0x08
  | .rdLedModeG => rdWord 0x09
  | .rdLedModeB => rdWord 0x0A
  | .wrLedModeR d => wrWord 0x08 d
  | .wrLedModeG d => wrWord 0x09 d
  | .wrLedModeB d => wrWord 0x0A d
  | .rdFlashDiv => rdWord 0x0B
  | .wrFlashDiv d => wrWord 0x0B d
  | .rdDutyR => rdWord 0x0C
  | .rdDutyG => rdWord 0x0D
  | .rdDutyB => rdWord 0x0E
  | .rdFlashLevel => rdWord 0x0F
  | .rdFlashStatus => rdWord 0x10
  | .rdFlashSub => rdWord 0x11
  | .rdNvCtrl => rdWord 0x12
  | .wrNvCtrl d => wrWord 0x12 d
  | .rdNvOffset => rdWord 0x13
  | .rdEvmask => rdWord 0x14
  | .wrEvmask d => wrWord 0x14 d
  | .rdDesired i => rdWord (desiredAddr i)
  | .wrDesired i d => wrWord (desiredAddr i) d
  | .rdProgrammed i => rdWord (programmedAddr i)
  | .evTick b o => evWord 0b0000 (BitVec.ofBool o ++ BitVec.ofBool b)
  | .evPwm => evWord 0b0001 0
  | .evNvnotify => evWord 0b0010 0
  | .evNvdone => evWord 0b0011 0

/-- The largest record a launch may have (R8): with it every row of the opcode table is an operation at every index. -/
def maxRecN : Nat := 16

/-- The operation the decoder reads from the first `nbits` bits of `w`, as spec/opcode_table.json numbers them: every row
is one 16-bit word, and bits from `nbits` on are 0. The table's rows are those of every launch, so the record is taken at
its largest size. -/
def decodeTableWord (nbits w : Nat) : Option Instr :=
  match decode maxRecN (BitVec.ofNat 16 (w % 2 ^ nbits)) with
  | .ok i => some i
  | .error _ => none

end Sys2Proof
end

