-- ==== Sys2Proof/Config.lean ====
section
/-! DEFINITION. What one launch of the block fixes (spec R8, R9), and the free values the spec leaves open (R16, R185). -/

namespace Sys2Proof.Config

/-- What a completed physical write leaves in the store (R185): the byte issued, or any byte. -/
inductive NvWriteResult where
  | exact
  | any
deriving DecidableEq, Repr

/-- The launch parameters, which "the model takes as arguments" (R8, R9). They stand in the state as plain data and no
step changes them, so a statement about every state is a statement about every launch. -/
structure Params where
  /-- `DEGLITCH_T`: how many consecutive disagreeing samples flip a stable value. -/
  deglitchT : Nat
  /-- `REC_N`: the size of the state record in bytes. -/
  recN : Nat
  /-- `NV_SIZE`: the size of the store in bytes. -/
  nvSize : Nat
  /-- `STATE_BASE`: the store address of byte 0 of the state record. -/
  stateBase : Nat
  /-- `CFG_BASE`: the store address of byte 0 of the configuration record. -/
  cfgBase : Nat
  /-- `NV_INIT`: the store's contents at launch, as (address, byte) cells; a byte not listed is 0. -/
  nvInit : List Host.Cell
  /-- `NV_WRITE_RESULT`. -/
  nvWriteResult : NvWriteResult
  /-- `POLARITY`: bit per signal, 1 = active-low (R83). -/
  polarity : Byte
  /-- `FLASH_DIV_INIT`. -/
  flashDivInit : Byte
deriving DecidableEq, Repr

/-- FREE VALUE (R16, R185, D22): the byte the `n`-th completed physical write leaves in the store when
`NV_WRITE_RESULT = any`. No body: nothing can be proved of its value. -/
opaque drawByte (n : Nat) : Byte

/-- The launch of spec/95_test_vectors.md: `DEGLITCH_T = 3`, `POLARITY = 0x00`, `FLASH_DIV_INIT = 1`, `REC_N = 3`,
`STATE_BASE = 0x0010`, `NV_INIT` all zero, `NV_WRITE_RESULT = exact`. DESIGN CHOICE (log 2): the whole 16-bit address
space as the store, the configuration record at address 0. -/
def vectorLaunch : Params where
  deglitchT := 3
  recN := 3
  nvSize := 65536
  stateBase := 0x0010
  cfgBase := 0
  nvInit := []
  nvWriteResult := .exact
  polarity := 0x00
  flashDivInit := 1

end Sys2Proof.Config
end

