-- ==== Sys2Proof/Machine/Memory.lean ====
section
/-! DEFINITION. The non-volatile store (spec R40, R50) as a list of (address, byte) cells in one canonical form: addresses
strictly rising, no cell equal to what an unlisted address reads as. -/

namespace Sys2Proof.Machine

/-- The contents of the store. -/
abbrev Memory := List Host.Cell

/-- What an unlisted address reads as (log 7): a matter of representation only, since `NV_INIT` gives every byte (R8). -/
def Memory.unlisted : Byte := 0

/-- The byte at address `a`. -/
def Memory.read : Memory → Nat → Byte
  | [], _ => Memory.unlisted
  | (k, v) :: m, a => if k = a then v else Memory.read m a

/-- The cell for `a` and `v` in front of `m`, or nothing where `v` is what an unlisted address reads as. -/
def Memory.put (m : Memory) (a : Nat) (v : Byte) : Memory :=
  if v = Memory.unlisted then m else (a, v) :: m

/-- The store after the byte `v` is written at `a`, in canonical form. -/
def Memory.write : Memory → Nat → Byte → Memory
  | [], a, v => Memory.put [] a v
  | (k, w) :: m, a, v =>
    if a < k then Memory.put ((k, w) :: m) a v
    else if a = k then Memory.put m a v
    else (k, w) :: Memory.write m a v

/-- The canonical form. -/
abbrev Memory.wf (m : Memory) : Prop :=
  m.Pairwise (fun c d => c.1 < d.1) ∧ ∀ c ∈ m, c.2 ≠ Memory.unlisted

/-- Every listed address is an address of a store of `size` bytes (R40). -/
abbrev Memory.within (size : Nat) (m : Memory) : Prop := ∀ c ∈ m, c.1 < size

/-- The store of `size` bytes whose contents the cells give: later cells win, cells past the store's end are no bytes of it. -/
def Memory.ofCells (size : Nat) (cells : List Host.Cell) : Memory :=
  cells.foldl (fun m c => if c.1 < size then Memory.write m c.1 c.2 else m) []

end Sys2Proof.Machine
end

