-- ==== Sys2Proof/Machine/Boot.lean ====
section
/-! DEFINITION. What a launch checks and reads before the first step: a well-formed configuration (spec R8, R10), the state
record loaded from the store (R242), and the configuration record's layout (R84, R245). -/

namespace Sys2Proof.Machine

/-- The size of the configuration record (R84). -/
def cfgRecordSize : Nat := 6

/-- A well-formed launch configuration (R10), with R8's bound on the store's size. -/
abbrev launchOk (p : Config.Params) : Prop :=
  1 ≤ p.deglitchT ∧ p.deglitchT ≤ 65535 ∧
  1 ≤ p.recN ∧ p.recN ≤ 16 ∧
  1 ≤ p.nvSize ∧ p.nvSize ≤ 65536 ∧
  p.stateBase + p.recN ≤ p.nvSize ∧
  p.cfgBase + cfgRecordSize ≤ p.nvSize ∧
  (p.stateBase + p.recN ≤ p.cfgBase ∨ p.cfgBase + cfgRecordSize ≤ p.stateBase)

/-- The state record as the store holds it (R52, R242): byte `i` at `STATE_BASE + i`. -/
def loadRecord (p : Config.Params) (nv : Memory) : List Byte :=
  (List.range p.recN).map (fun i => Memory.read nv (p.stateBase + i))

/-- The configuration record (R84): six one-byte unsigned fields. -/
structure ConfigRecord where
  polarity : Byte
  flashDiv : Byte
  minStabilize : Byte
  minOffValid : Byte
  pressThreshold : Byte
  cancelThreshold : Byte
deriving DecidableEq, Repr

/-- The configuration record as the store holds it at `CFG_BASE` (R84). -/
def loadConfigRecord (p : Config.Params) (nv : Memory) : ConfigRecord where
  polarity := Memory.read nv p.cfgBase
  flashDiv := Memory.read nv (p.cfgBase + 1)
  minStabilize := Memory.read nv (p.cfgBase + 2)
  minOffValid := Memory.read nv (p.cfgBase + 3)
  pressThreshold := Memory.read nv (p.cfgBase + 4)
  cancelThreshold := Memory.read nv (p.cfgBase + 5)

/-- The loader of a store that has been written presents `POLARITY` and `FLASH_DIV_INIT` from offsets 0 and 1 (R84, R245). -/
def presentConfigRecord (p : Config.Params) (nv : Memory) : Config.Params :=
  { p with
    polarity := (loadConfigRecord p nv).polarity
    flashDivInit := (loadConfigRecord p nv).flashDiv }

end Sys2Proof.Machine
end

