-- ==== Sys2Proof/Machine/State.lean ====
section
/-! DEFINITION. The state of the block (spec R20), plain data, with the launch parameters it runs under and the model's own
input, output and draw counter; the reasons a step stops; the state at power-on (R241, R242). -/

namespace Sys2Proof.Machine

/-- One value per LED channel (R20: index 0 = R, 1 = G, 2 = B). -/
structure Rgb (α : Type) where
  r : α
  g : α
  b : α
deriving DecidableEq, Repr

/-- The three LED channels (R26). -/
inductive Channel where
  | r
  | g
  | b
deriving DecidableEq, Repr

/-- A Debounced Input (R24). -/
structure Deb where
  /-- The latest polarity-corrected sample, true = asserted. -/
  raw : Bool
  /-- The hysteresis counter. -/
  cnt : BitVec 16
  /-- The debounced value, true = asserted. -/
  stable : Bool
deriving DecidableEq, Repr

/-- Why the block stops. The first four are the spec's model faults (R211). -/
inductive Fault where
  /-- Code 1: a reserved transaction word (R85). Raised by decoding; a later step from the faulted state answers it. Safe. -/
  | illegalWord (w : Word)
  /-- Code 2: RD or WR of a reserved register address (R85). Raised by decoding and by a record-window access past REC_N. Safe. -/
  | unmappedAccess (w : Word) (a : RegAddr)
  /-- Code 3: WR of a read-only register (R85). Raised by decoding. Safe. -/
  | readOnlyWrite (w : Word) (a : RegAddr)
  /-- Code 4: a launch configuration that is not well formed (R10, R214). Answered by `State.launch` only. Safe. -/
  | badConfig (p : Config.Params)
  /-- A store address at or past NV_SIZE, which does not exist (R40, R50). Answered by EV_NVDONE; unreachable by R52. Safe (log 6). -/
  | noStoreByte (a : StoreAddr)
deriving DecidableEq, Repr

/-- Why a word has no step. -/
inductive Refusal where
  /-- The instruction has no meaning yet. Raised by `exec` only. Safe. -/
  | notModelled (mnemonic : String)
  /-- The event is not enabled, so its word has no step: the trace is no run of the model (R213). Raised by the EV meanings. Safe. -/
  | notEnabled (e : Event)
  /-- No agent issues a word: the inbox is empty. Raised by `step`. Safe (log 1). -/
  | noTransaction
deriving DecidableEq, Repr

/-- The state record `s` of R20, field by field, then the launch parameters (R8, R9) and the model's own fields. -/
structure State where
  /-- The Tick Counter (R23). -/
  tick : BitVec 32
  /-- The button (R24). -/
  btn : Deb
  /-- The power-off signal (R24). -/
  off : Deb
  /-- The LED modes (R26). -/
  ledMode : Rgb LedMode
  /-- The duty registers (R27). -/
  duty : Rgb Byte
  /-- The Flash Waveform's level (R28). -/
  level : Byte
  /-- The Flash Waveform's direction, true = +1 (R29). -/
  dirUp : Bool
  /-- The sub-tick counter (R30). -/
  sub : Byte
  /-- The speed divisor (R31). -/
  flashDiv : Byte
  /-- The polarity bitmask (R33). -/
  polarity : Byte
  /-- The desired copy of the state record, REC_N bytes (R34). -/
  desired : List Byte
  /-- The programmed copy of the state record, REC_N bytes (R35). -/
  programmed : List Byte
  /-- The scan cursor (R36). -/
  offset : Byte
  /-- The write-ready interrupt enable, which is the pending flag (R37). -/
  ie : Bool
  /-- The event hold (R39). -/
  evmask : Bool
  /-- The non-volatile store (R40). -/
  nv : Memory
  /-- A physical write is in progress (R41). -/
  nvBusy : Bool
  /-- The address of the write in progress (R41). -/
  nvPa : StoreAddr
  /-- The data of the write in progress (R41). -/
  nvPd : Byte
  /-- The fault record (R42). -/
  fault : Option Fault
  /-- The launch parameters (R8, R9); no step writes them. -/
  params : Config.Params
  /-- MODEL: the agents' words still to come, oldest first: the total order of steps of R61 (log 1). -/
  inbox : List Word
  /-- MODEL: the bytes RD transactions have returned to the host, oldest first (R71; log 4). -/
  outbox : List Byte
  /-- MODEL: how many free values have been drawn (R185; log 5). -/
  draws : Nat
deriving DecidableEq, Repr

/-- A Debounced Input at power-on (R24). -/
def Deb.zero : Deb := { raw := false, cnt := 0, stable := false }

/-- The state at power-on with launch parameters `p` and store contents `nv` (R46, R241, R242). `nvPa` and `nvPd` have no
reset value in the spec and are never read while `nvBusy` is false (R41): DESIGN CHOICE 0 (log 3). -/
def State.powerOn (p : Config.Params) (nv : Memory) : State where
  tick := 0
  btn := Deb.zero
  off := Deb.zero
  ledMode := ⟨0b00, 0b00, 0b00⟩
  duty := ⟨0, 0, 0⟩
  level := 0
  dirUp := true
  sub := p.flashDivInit
  flashDiv := p.flashDivInit
  polarity := p.polarity
  desired := loadRecord p nv
  programmed := loadRecord p nv
  offset := 0
  ie := false
  evmask := false
  nv := nv
  nvBusy := false
  nvPa := 0
  nvPd := 0
  fault := none
  params := p
  inbox := []
  outbox := []
  draws := 0

/-- The machine right after power-on, for the launch of spec/95_test_vectors.md (log 2). -/
def State.reset : State :=
  State.powerOn Config.vectorLaunch (Memory.ofCells Config.vectorLaunch.nvSize Config.vectorLaunch.nvInit)

end Sys2Proof.Machine
end

