-- ==== Sys2Proof/Machine/Ops.lean ====
section
/-! DEFINITION. The named operations over the state: one per group of fields a step writes (spec R45), the returned byte of
a read, raising a fault (R212), the physical write (R179, R180), enabling an event (R215), launch and power-on (R214, R240). -/

namespace Sys2Proof.Machine

/-- The value of channel `c` (R20). -/
def Rgb.get {α : Type} (x : Rgb α) : Channel → α
  | .r => x.r
  | .g => x.g
  | .b => x.b

/-- `x` with channel `c` at `v`. -/
def Rgb.set {α : Type} (x : Rgb α) (c : Channel) (v : α) : Rgb α :=
  match c with
  | .r => { x with r := v }
  | .g => { x with g := v }
  | .b => { x with b := v }

/-- Byte `i` of a copy of the state record. -/
def recordByte (bytes : List Byte) (i : Nat) : Byte := bytes.getD i 0

/-- A RD transaction returns one byte to the host and changes no field of the block (R56, R71). -/
def State.reply (s : State) (v : Byte) : State := { s with outbox := s.outbox ++ [v] }

/-- `raise Fault(k)` records the fault, changes nothing else and ends the step (R212). There is no return: no step clears
the record (R42, R222). -/
def State.raise (s : State) (k : Fault) : State := { s with fault := some k }

/-- What a TICK writes (R45). -/
def State.setDebounce (s : State) (tick : BitVec 32) (btn off : Deb) : State :=
  { s with tick := tick, btn := btn, off := off }

/-- The duty registers, written by a PWM event (R45). -/
def State.setDuty (s : State) (duty : Rgb Byte) : State := { s with duty := duty }

/-- The Flash Waveform, written by a PWM event (R45). -/
def State.setWave (s : State) (level : Byte) (dirUp : Bool) (sub : Byte) : State :=
  { s with level := level, dirUp := dirUp, sub := sub }

/-- The LED modes, written by the host (R26). -/
def State.setLedMode (s : State) (c : Channel) (m : LedMode) : State :=
  { s with ledMode := s.ledMode.set c m }

/-- The speed divisor, written by the host (R31). -/
def State.setFlashDiv (s : State) (d : Byte) : State := { s with flashDiv := d }

/-- The event hold, written by the host (R39). -/
def State.setEvmask (s : State) (v : Bool) : State := { s with evmask := v }

/-- Byte `i` of the desired copy, written by the host (R34). -/
def State.setDesired (s : State) (i : Nat) (v : Byte) : State := { s with desired := s.desired.set i v }

/-- Byte `i` of the programmed copy, written by the NV unit (R35). -/
def State.setProgrammed (s : State) (i : Nat) (v : Byte) : State :=
  { s with programmed := s.programmed.set i v }

/-- The scan cursor and the pending flag, written by the NV unit (R36, R37). -/
def State.setScan (s : State) (offset : Byte) (ie : Bool) : State := { s with offset := offset, ie := ie }

/-- `NvIssue(addr, v)` starts one physical one-byte write (R179). -/
def State.nvIssue (s : State) (addr : StoreAddr) (v : Byte) : State :=
  { s with nvBusy := true, nvPa := addr, nvPd := v }

/-- The byte a completing physical write leaves (R180, R185): the byte issued, or a fresh free value. -/
def State.writeResult (s : State) : Byte :=
  match s.params.nvWriteResult with
  | .exact => s.nvPd
  | .any => Config.drawByte s.draws

/-- How many free values have been drawn once a physical write completes (R185). -/
def State.drawsAfterWrite (s : State) : Nat :=
  match s.params.nvWriteResult with
  | .exact => s.draws
  | .any => s.draws + 1

/-- The physical write in progress completes (R180). -/
def State.nvComplete (s : State) : State :=
  { s with
    nv := Memory.write s.nv s.nvPa.toNat s.writeResult
    nvBusy := false
    draws := s.drawsAfterWrite }

/-- The agents' remaining words (R61). -/
def State.setInbox (s : State) (ws : List Word) : State := { s with inbox := ws }

/-- `enabled(e)` (R215, R216). -/
def State.enabled (s : State) : Event → Bool
  | .tick => !s.evmask
  | .pwm => !s.evmask
  | .nvNotify => s.ie && !s.nvBusy && !s.evmask
  | .nvDone => s.nvBusy

/-- The event's step where it is enabled; an event that is not enabled has no step (R213). -/
def whenEnabled (e : Event) (s : State) (t : Host.Outcome State Fault Refusal) :
    Host.Outcome State Fault Refusal :=
  if s.enabled e then t else .refused (.notEnabled e)

/-- The fault a word that is no operation raises (R75, R211). -/
def faultOf : DecodeError → Fault
  | .illegalWord w => .illegalWord w
  | .unmappedAccess w a => .unmappedAccess w a
  | .readOnlyWrite w a => .readOnlyWrite w a

/-- The code of a spec fault (R211); the model's own fault has none. -/
def Fault.code : Fault → Option Nat
  | .illegalWord _ => some 1
  | .unmappedAccess _ _ => some 2
  | .readOnlyWrite _ _ => some 3
  | .badConfig _ => some 4
  | .noStoreByte _ => none

/-- A record-window access `i` (its word `w`, at address `a`) has its effect `t` where `i < REC_N`, and raises
UnmappedAccess otherwise (R82, R85, R174 to R176). -/
def inRecord (s : State) (i : RecIndex) (w : Word) (a : RegAddr) (t : State) :
    Host.Outcome State Fault Refusal :=
  if i.toNat < s.params.recN then .next t else .next (s.raise (.unmappedAccess w a))

/-- The absolute store address of record byte `i`, `STATE_BASE +_16 i` (R52, R170). -/
def recordAddr (p : Config.Params) (i : Nat) : StoreAddr := BitVec.ofNat 16 p.stateBase + BitVec.ofNat 16 i

/-- The launch of configuration `p` (R214): power-on with the store `NV_INIT`, or no initial state. -/
def State.launch (p : Config.Params) : Host.Outcome State Fault Refusal :=
  if launchOk p then .next (State.powerOn p (Memory.ofCells p.nvSize p.nvInit)) else .fault (.badConfig p)

/-- Power loss and power-on, the block's one reset (R229, R240, R241): the store keeps its contents, every other field of the
block is lost. The agents' words, the bytes already returned and the draw counter are the model's own and stay. -/
def State.powerCycle (s : State) : State :=
  { State.powerOn s.params s.nv with inbox := s.inbox, outbox := s.outbox, draws := s.draws }

end Sys2Proof.Machine
end

