-- ==== Sys2Proof/Machine/Flags.lean ====
section
/-! DEFINITION. The block has no condition codes (spec R43): its status bits, and the bytes in which the host reads them
(R77, R79, R80, R81), unused bits 0 (R51). -/

namespace Sys2Proof.Machine

/-- `nv_ready = not nv_busy` (R41). -/
def State.nvReady (s : State) : Bool := !s.nvBusy

/-- `zext_8(b)` of one bit. -/
def bitByte (b : Bool) : Byte := (BitVec.ofBool b).setWidth 8

/-- `zext_8({hi, lo})` of two bits. -/
def pairByte (hi lo : Bool) : Byte := (BitVec.ofBool hi ++ BitVec.ofBool lo).setWidth 8

/-- The byte of BTN_STATE or OFF_STATE: bit 1 = raw, bit 0 = stable (R77). -/
def Deb.statusByte (d : Deb) : Byte := pairByte d.raw d.stable

/-- The byte of FLASH_STATUS: bit 0 = dir_up (R79). -/
def State.flashStatusByte (s : State) : Byte := bitByte s.dirUp

/-- The byte of NV_CTRL: bit 1 = nv_ready, bit 0 = ie (R80). -/
def State.nvCtrlByte (s : State) : Byte := pairByte s.nvReady s.ie

/-- The byte of EVMASK: bit 0 = evmask (R81). -/
def State.evmaskByte (s : State) : Byte := bitByte s.evmask

end Sys2Proof.Machine
end

