-- ==== Sys2Proof/Machine/Operands.lean ====
section
/-! DEFINITION. Operand forms (spec R74): the tick's byte lanes, the mode and flag bits taken from a written byte, the
polarity bits, the polarity-corrected pin samples. -/

namespace Sys2Proof.Machine

/-- Byte lane `k` of the Tick Counter, little-endian (R53). -/
def tickLane (t : BitVec 32) (k : Nat) : Byte := t.extractLsb' (8 * k) 8

/-- `D[1:0]`, the mode a LED_MODE write takes; `D[7:2]` is ignored (R78). -/
def modeOperand (d : Byte) : LedMode := d.extractLsb' 0 2

/-- `D[0]`, the bit an NV_CTRL or EVMASK write takes; `D[7:1]` is ignored (R80, R81). -/
def bitOperand (d : Byte) : Bool := d.getLsbD 0

/-- A mode as the host reads it: `zext_8` (R78). -/
def modeByte (m : LedMode) : Byte := m.setWidth 8

/-- The ON bit of a mode (R78). -/
def onBit (m : LedMode) : Bool := m.getLsbD 0

/-- The FLASH bit of a mode (R78). -/
def flashBit (m : LedMode) : Bool := m.getLsbD 1

/-- The signals of the polarity bitmask (R83); bits 7:6 are unused. The block reads the two inputs' bits only. -/
inductive Signal where
  | button
  | offSignal
  | ledR
  | ledG
  | ledB
  | relay
deriving DecidableEq, Repr

/-- The signal's bit in the polarity bitmask (R83). -/
def polarityIndex : Signal → Nat
  | .button => 0
  | .offSignal => 1
  | .ledR => 2
  | .ledG => 3
  | .ledB => 4
  | .relay => 5

/-- The signal is active-low (R83). -/
def activeLow (polarity : Byte) (x : Signal) : Bool := polarity.getLsbD (polarityIndex x)

/-- The polarity-corrected sample of an input whose pin is at `level` (R100). -/
def sample (polarity : Byte) (x : Signal) (level : Bool) : Bool := level ^^ activeLow polarity x

end Sys2Proof.Machine
end

