-- ==== Sys2Proof/Machine/Debounce.lean ====
section
/-! DEFINITION. The debounce unit (spec 40_tick_debounce.md): EV_TICK, the Tick Counter reads, the input and polarity reads. -/

namespace Sys2Proof.Machine

/-- `Deb(d, r)`: one sample of a Debounced Input (R101). The flip happens on the `deglitchT`-th consecutive disagreeing
sample. -/
def debStep (deglitchT : Nat) (d : Deb) (r : Bool) : Deb :=
  if r = d.stable then { raw := r, cnt := 0, stable := d.stable }
  else if (d.cnt + 1).toNat = deglitchT then { raw := r, cnt := 0, stable := !d.stable }
  else { raw := r, cnt := d.cnt + 1, stable := d.stable }

/-- The state a TICK with pin levels `b` and `o` leaves (R100). -/
def State.tickStep (s : State) (b o : Bool) : State :=
  s.setDebounce (s.tick + 1)
    (debStep s.params.deglitchT s.btn (sample s.polarity .button b))
    (debStep s.params.deglitchT s.off (sample s.polarity .offSignal o))

/-- EV_TICK (R100). -/
def execEvTick (b o : Bool) (s : State) : Host.Outcome State Fault Refusal :=
  whenEnabled .tick s (.next (s.tickStep b o))

/-- RD_TICK0 (R102). -/
def execRdTick0 (s : State) : Host.Outcome State Fault Refusal := .next (s.reply (tickLane s.tick 0))

/-- RD_TICK1 (R103). -/
def execRdTick1 (s : State) : Host.Outcome State Fault Refusal := .next (s.reply (tickLane s.tick 1))

/-- RD_TICK2 (R104). -/
def execRdTick2 (s : State) : Host.Outcome State Fault Refusal := .next (s.reply (tickLane s.tick 2))

/-- RD_TICK3 (R105). -/
def execRdTick3 (s : State) : Host.Outcome State Fault Refusal := .next (s.reply (tickLane s.tick 3))

/-- RD_BTN_STATE (R106). -/
def execRdBtnState (s : State) : Host.Outcome State Fault Refusal := .next (s.reply s.btn.statusByte)

/-- RD_OFF_STATE (R107). -/
def execRdOffState (s : State) : Host.Outcome State Fault Refusal := .next (s.reply s.off.statusByte)

/-- RD_POLARITY (R108). -/
def execRdPolarity (s : State) : Host.Outcome State Fault Refusal := .next (s.reply s.polarity)

end Sys2Proof.Machine
end

