-- ==== Sys2Proof/Machine/HostControl.lean ====
section
/-! DEFINITION. The event hold (spec 43_host_control.md). -/

namespace Sys2Proof.Machine

/-- RD_EVMASK (R200). -/
def execRdEvmask (s : State) : Host.Outcome State Fault Refusal := .next (s.reply s.evmaskByte)

/-- WR_EVMASK (R201). -/
def execWrEvmask (d : Byte) (s : State) : Host.Outcome State Fault Refusal :=
  .next (s.setEvmask (bitOperand d))

end Sys2Proof.Machine
end

