-- ==== Sys2Proof/Machine/Led.lean ====
section
/-! DEFINITION. The LED unit (spec 41_led_pwm_flash.md): EV_PWM, the mode and divisor registers, the duty and waveform reads. -/

namespace Sys2Proof.Machine

/-- `DutyOf(m, l)`: the mode-to-duty converter (R131). -/
def dutyOf (m : LedMode) (l : Byte) : Byte :=
  let raw := if flashBit m then l else 0
  if onBit m then 255 - raw else raw

/-- The duty of every channel at level `l` (R130). -/
def dutiesOf (modes : Rgb LedMode) (l : Byte) : Rgb Byte :=
  ⟨dutyOf modes.r l, dutyOf modes.g l, dutyOf modes.b l⟩

/-- The direction after the level became `l` (R132): up at 0, down at 255, else as before. -/
def turn (l : Byte) (dirUp : Bool) : Bool :=
  if l = 0 then true else if l = 255 then false else dirUp

/-- `level` one step in the current direction (R132). -/
def nextLevel (l : Byte) (dirUp : Bool) : Byte := if dirUp then l + 1 else l - 1

/-- `WaveStep()`: one PWM event of the Flash Waveform (R132). -/
def State.waveStep (s : State) : State :=
  if s.sub - 1 = 0 then
    s.setWave (nextLevel s.level s.dirUp) (turn (nextLevel s.level s.dirUp) s.dirUp) s.flashDiv
  else s.setWave s.level s.dirUp (s.sub - 1)

/-- The state a PWM event leaves (R130): the duties from the level before the waveform's step. -/
def State.pwmStep (s : State) : State := (s.setDuty (dutiesOf s.ledMode s.level)).waveStep

/-- EV_PWM (R130). -/
def execEvPwm (s : State) : Host.Outcome State Fault Refusal := whenEnabled .pwm s (.next s.pwmStep)

/-- RD_LED_MODE_R (R133). -/
def execRdLedModeR (s : State) : Host.Outcome State Fault Refusal := .next (s.reply (modeByte s.ledMode.r))

/-- RD_LED_MODE_G (R134). -/
def execRdLedModeG (s : State) : Host.Outcome State Fault Refusal := .next (s.reply (modeByte s.ledMode.g))

/-- RD_LED_MODE_B (R135). -/
def execRdLedModeB (s : State) : Host.Outcome State Fault Refusal := .next (s.reply (modeByte s.ledMode.b))

/-- WR_LED_MODE_R (R136). -/
def execWrLedModeR (d : Byte) (s : State) : Host.Outcome State Fault Refusal :=
  .next (s.setLedMode .r (modeOperand d))

/-- WR_LED_MODE_G (R137). -/
def execWrLedModeG (d : Byte) (s : State) : Host.Outcome State Fault Refusal :=
  .next (s.setLedMode .g (modeOperand d))

/-- WR_LED_MODE_B (R138). -/
def execWrLedModeB (d : Byte) (s : State) : Host.Outcome State Fault Refusal :=
  .next (s.setLedMode .b (modeOperand d))

/-- RD_FLASH_DIV (R139). -/
def execRdFlashDiv (s : State) : Host.Outcome State Fault Refusal := .next (s.reply s.flashDiv)

/-- WR_FLASH_DIV (R140). -/
def execWrFlashDiv (d : Byte) (s : State) : Host.Outcome State Fault Refusal := .next (s.setFlashDiv d)

/-- RD_DUTY_R (R141). -/
def execRdDutyR (s : State) : Host.Outcome State Fault Refusal := .next (s.reply s.duty.r)

/-- RD_DUTY_G (R142). -/
def execRdDutyG (s : State) : Host.Outcome State Fault Refusal := .next (s.reply s.duty.g)

/-- RD_DUTY_B (R143). -/
def execRdDutyB (s : State) : Host.Outcome State Fault Refusal := .next (s.reply s.duty.b)

/-- RD_FLASH_LEVEL (R144). -/
def execRdFlashLevel (s : State) : Host.Outcome State Fault Refusal := .next (s.reply s.level)

/-- RD_FLASH_STATUS (R145). -/
def execRdFlashStatus (s : State) : Host.Outcome State Fault Refusal := .next (s.reply s.flashStatusByte)

/-- RD_FLASH_SUB (R146). -/
def execRdFlashSub (s : State) : Host.Outcome State Fault Refusal := .next (s.reply s.sub)

end Sys2Proof.Machine
end

