-- ==== Sys2Proof/Machine/Nv.lean ====
section
/-! DEFINITION. The NV unit (spec 42_nv_writer.md): the host's operations on it, the scan EV_NVNOTIFY and the store's
completion EV_NVDONE. -/

namespace Sys2Proof.Machine

/-- `request_write()` (R171): the scan restarts from offset 0 and the write-ready interrupt is enabled. -/
def State.requestWrite (s : State) : State := s.setScan 0 true

/-- WR_NV_CTRL (R171): `D[0] = 1` is `request_write`, `D[0] = 0` does nothing. -/
def execWrNvCtrl (d : Byte) (s : State) : Host.Outcome State Fault Refusal :=
  .next (if bitOperand d then s.requestWrite else s)

/-- RD_NV_CTRL (R172). -/
def execRdNvCtrl (s : State) : Host.Outcome State Fault Refusal := .next (s.reply s.nvCtrlByte)

/-- RD_NV_OFFSET (R173). -/
def execRdNvOffset (s : State) : Host.Outcome State Fault Refusal := .next (s.reply s.offset)

/-- RD_DESIRED (R174). -/
def execRdDesired (i : RecIndex) (s : State) : Host.Outcome State Fault Refusal :=
  inRecord s i (rdWord (desiredAddr i)) (desiredAddr i) (s.reply (recordByte s.desired i.toNat))

/-- WR_DESIRED (R175). -/
def execWrDesired (i : RecIndex) (d : Byte) (s : State) : Host.Outcome State Fault Refusal :=
  inRecord s i (wrWord (desiredAddr i) d) (desiredAddr i) (s.setDesired i.toNat d)

/-- RD_PROGRAMMED (R176). -/
def execRdProgrammed (i : RecIndex) (s : State) : Host.Outcome State Fault Refusal :=
  inRecord s i (rdWord (programmedAddr i)) (programmedAddr i) (s.reply (recordByte s.programmed i.toNat))

/-- The scan's write of the differing byte `i` (R178): the programmed copy is updated at issue (R179). -/
def State.programByte (s : State) (i : Nat) : State :=
  (s.setProgrammed i (recordByte s.desired i)).nvIssue (recordAddr s.params i) (recordByte s.desired i)

/-- The scan loop of EV_NVNOTIFY (R178), at most `fuel` turns. From a cursor within the record, `REC_N` turns reach a stop
(log 9). -/
def scanLoop : Nat → State → State
  | 0, s => s
  | fuel + 1, s =>
    if s.params.recN ≤ s.offset.toNat then s.setScan s.offset false
    else if recordByte s.desired s.offset.toNat ≠ recordByte s.programmed s.offset.toNat then
      s.programByte s.offset.toNat
    else if (s.offset + 1).toNat = s.params.recN then s.setScan (s.offset + 1) false
    else scanLoop fuel (s.setScan (s.offset + 1) s.ie)

/-- The state an NVNOTIFY leaves (R178). -/
def State.notifyStep (s : State) : State := scanLoop (s.params.recN + 1) s

/-- EV_NVNOTIFY (R177, R178). -/
def execEvNvnotify (s : State) : Host.Outcome State Fault Refusal := whenEnabled .nvNotify s (.next s.notifyStep)

/-- EV_NVDONE (R180). A store address at or past `NV_SIZE` does not exist (log 6). -/
def execEvNvdone (s : State) : Host.Outcome State Fault Refusal :=
  whenEnabled .nvDone s
    (if s.nvPa.toNat < s.params.nvSize then .next s.nvComplete else .fault (.noStoreByte s.nvPa))

end Sys2Proof.Machine
end

