-- ==== Sys2Proof/Machine/Dispatch.lean ====
section
/-! DEFINITION. The meaning of each operation: one arm per row of spec/opcode_table.json, each a direct call. -/

namespace Sys2Proof.Machine

/-- What operation `i` does in state `s`. -/
def exec (i : Instr) (s : State) : Host.Outcome State Fault Refusal :=
  match i with
  | .rdTick0 => Sys2Proof.Machine.execRdTick0 s
  | .rdTick1 => Sys2Proof.Machine.execRdTick1 s
  | .rdTick2 => Sys2Proof.Machine.execRdTick2 s
  | .rdTick3 => Sys2Proof.Machine.execRdTick3 s
  | .rdBtnState => Sys2Proof.Machine.execRdBtnState s
  | .rdOffState => Sys2Proof.Machine.execRdOffState s
  | .rdPolarity => Sys2Proof.Machine.execRdPolarity s
  | .rdLedModeR => Sys2Proof.Machine.execRdLedModeR s
  | .rdLedModeG => Sys2Proof.Machine.execRdLedModeG s
  | .rdLedModeB => Sys2Proof.Machine.execRdLedModeB s
  | .wrLedModeR d => Sys2Proof.Machine.execWrLedModeR d s
  | .wrLedModeG d => Sys2Proof.Machine.execWrLedModeG d s
  | .wrLedModeB d => Sys2Proof.Machine.execWrLedModeB d s
  | .rdFlashDiv => Sys2Proof.Machine.execRdFlashDiv s
  | .wrFlashDiv d => Sys2Proof.Machine.execWrFlashDiv d s
  | .rdDutyR => Sys2Proof.Machine.execRdDutyR s
  | .rdDutyG => Sys2Proof.Machine.execRdDutyG s
  | .rdDutyB => Sys2Proof.Machine.execRdDutyB s
  | .rdFlashLevel => Sys2Proof.Machine.execRdFlashLevel s
  | .rdFlashStatus => Sys2Proof.Machine.execRdFlashStatus s
  | .rdFlashSub => Sys2Proof.Machine.execRdFlashSub s
  | .rdNvCtrl => Sys2Proof.Machine.execRdNvCtrl s
  | .wrNvCtrl d => Sys2Proof.Machine.execWrNvCtrl d s
  | .rdNvOffset => Sys2Proof.Machine.execRdNvOffset s
  | .rdEvmask => Sys2Proof.Machine.execRdEvmask s
  | .wrEvmask d => Sys2Proof.Machine.execWrEvmask d s
  | .rdDesired k => Sys2Proof.Machine.execRdDesired k s
  | .wrDesired k d => Sys2Proof.Machine.execWrDesired k d s
  | .rdProgrammed k => Sys2Proof.Machine.execRdProgrammed k s
  | .evTick b o => Sys2Proof.Machine.execEvTick b o s
  | .evPwm => Sys2Proof.Machine.execEvPwm s
  | .evNvnotify => Sys2Proof.Machine.execEvNvnotify s
  | .evNvdone => Sys2Proof.Machine.execEvNvdone s

end Sys2Proof.Machine
end

