-- ==== Sys2Proof/Machine/Fetch.lean ====
section
/-! DEFINITION. Taking the next agent's word (spec R61): the block has no program counter (R22), it takes one word a step in
the total order of the agents' steps. -/

namespace Sys2Proof.Machine

/-- The next word and the state without it, where an agent issues one. -/
def takeWord (s : State) : Option (Word × State) :=
  match s.inbox with
  | [] => none
  | w :: ws => some (w, s.setInbox ws)

/-- `s` with the word whose first `nbits` bits are `w`, the others 0, before the words still to come. -/
def placeWord (s : State) (nbits w : Nat) : State :=
  s.setInbox (BitVec.ofNat 16 (w % 2 ^ nbits) :: s.inbox)

end Sys2Proof.Machine
end

