-- ==== Sys2Proof/Machine/Step.lean ====
section
/-! DEFINITION. One step of the block: the next agent's word is taken, decoded and run (spec R57, R61, R75). -/

namespace Sys2Proof.Machine

/-- One step. A faulted state has none (R212). A word that is no operation raises its fault and changes nothing else
(R75, R212). With no word to take, no agent steps (log 1). -/
def step (s : State) : Host.Outcome State Fault Refusal :=
  match s.fault with
  | some k => .fault k
  | none =>
    match takeWord s with
    | none => .refused .noTransaction
    | some (w, t) =>
      match decode t.params.recN w with
      | .error e => .next (t.raise (faultOf e))
      | .ok i => exec i t

/-- `s` with the operation whose first `nbits` bits are `w` (the others 0) as the very next word `step` takes. -/
def State.withFetchWord (s : State) (nbits w : Nat) : State := placeWord s nbits w

end Sys2Proof.Machine
end

