-- ==== Sys2Proof/Machine/HostProcedures.lean ====
section
/-! DEFINITION. What the host does with the block's operations (spec R13, R89, R109, R110, R229): pseudo-instructions,
tear-free reads of the Tick Counter, durations, wake-ups. -/

namespace Sys2Proof.Machine

/-- The pseudo-instructions (R89). -/
inductive Pseudo where
  | setMode (c : Channel) (m : Byte)
  | setFlashSpeed (d : Byte)
  | requestWrite
  | csEnter
  | csExit
  | readTickCs
  | readTick
  | readButton
  | readOff
deriving DecidableEq, Repr

/-- The reads of the four lanes of the Tick Counter. -/
def readLanes : List Instr := [.rdTick0, .rdTick1, .rdTick2, .rdTick3]

/-- The expansion of a pseudo-instruction (R89); `readTick` is the straight-line body of the host's loop (R109). -/
def Pseudo.expand : Pseudo → List Instr
  | .setMode .r m => [.wrLedModeR m]
  | .setMode .g m => [.wrLedModeG m]
  | .setMode .b m => [.wrLedModeB m]
  | .setFlashSpeed d => [.wrFlashDiv d]
  | .requestWrite => [.wrNvCtrl 0x01]
  | .csEnter => [.wrEvmask 0x01]
  | .csExit => [.wrEvmask 0x00]
  | .readTickCs => .wrEvmask 0x01 :: readLanes ++ [.wrEvmask 0x00]
  | .readTick => readLanes ++ [.rdTick0]
  | .readButton => [.rdBtnState]
  | .readOff => [.rdOffState]

/-- The words of operations, to be placed in the inbox. -/
def words (is : List Instr) : List Word := is.map encode

/-- Run operations one after another (R61, R62), stopping at a fault or a refusal; a state that raised a fault runs no
further (R212). -/
def runAll : List Instr → State → Host.Outcome State Fault Refusal
  | [], s => .next s
  | i :: is, s =>
    match s.fault with
    | some k => .fault k
    | none =>
      match exec i s with
      | .next t => runAll is t
      | .fault k => .fault k
      | .refused r => .refused r

/-- The Tick Counter value four lane bytes stand for, `{h3, h2, h1, l}` (R109, R110). -/
def tickOfLanes (l h1 h2 h3 : Byte) : BitVec 32 := h3 ++ h2 ++ h1 ++ l

/-- What one iteration of `read_tick` returns: the value where both low-byte reads agree, else nothing and the host
retries (R109). -/
def readTickResult (l1 h1 h2 h3 l2 : Byte) : Option (BitVec 32) :=
  if l1 = l2 then some (tickOfLanes l1 h1 h2 h3) else none

/-- A duration between two Tick Counter readings, `now -_32 then` (R13, R113, R253). -/
def duration (now earlier : BitVec 32) : BitVec 32 := now - earlier

/-- The step of this operation is a wake-up event for the host (R229). -/
def wakesHost : Instr → Bool
  | .evTick _ _ | .evPwm | .evNvnotify => true
  | .rdTick0 | .rdTick1 | .rdTick2 | .rdTick3 | .rdBtnState | .rdOffState | .rdPolarity
  | .rdLedModeR | .rdLedModeG | .rdLedModeB | .wrLedModeR _ | .wrLedModeG _ | .wrLedModeB _
  | .rdFlashDiv | .wrFlashDiv _ | .rdDutyR | .rdDutyG | .rdDutyB | .rdFlashLevel | .rdFlashStatus
  | .rdFlashSub | .rdNvCtrl | .wrNvCtrl _ | .rdNvOffset | .rdEvmask | .wrEvmask _
  | .rdDesired _ | .wrDesired _ _ | .rdProgrammed _ | .evNvdone => false

end Sys2Proof.Machine
end

