-- ==== Sys2Proof/Machine/Assembler.lean ====
section
/-! DEFINITION. The textual form of a transaction (spec R88) and the text of the pseudo-instructions (R89): one line of text
gives the words it stands for. A word the text names is placed whether or not it decodes (R75 faults it when it is taken). -/

namespace Sys2Proof.Machine

/-- The pieces of a line: words, and the three punctuation marks. -/
inductive Token where
  | word (cs : List Char)
  | comma
  | openBracket
  | closeBracket
deriving DecidableEq, Repr

/-- The word read so far (last character first), where there is one, before the tokens after it. -/
def endWord (read : List Char) (ts : List Token) : List Token :=
  if read = [] then ts else .word read.reverse :: ts

/-- The tokens of a line: case is ignored, `;` starts a comment (R88). -/
def tokens (read : List Char) : List Char → List Token
  | [] => endWord read []
  | c :: cs =>
    if c = ';' then endWord read []
    else if c = ' ' ∨ c = '\t' then endWord read (tokens [] cs)
    else if c = ',' then endWord read (.comma :: tokens [] cs)
    else if c = '[' then endWord read (.openBracket :: tokens [] cs)
    else if c = ']' then endWord read (.closeBracket :: tokens [] cs)
    else tokens (c.toLower :: read) cs

/-- The value of a digit, `0` to `9` and `a` to `f`. -/
def digitValue (c : Char) : Option Nat :=
  if 48 ≤ c.toNat ∧ c.toNat ≤ 57 then some (c.toNat - 48)
  else if 97 ≤ c.toNat ∧ c.toNat ≤ 102 then some (c.toNat - 87)
  else none

/-- The number the digits make in base `base`, after those that made `acc`. -/
def digitsValue (base acc : Nat) : List Char → Option Nat
  | [] => some acc
  | c :: cs =>
    match digitValue c with
    | some d => if d < base then digitsValue base (acc * base + d) cs else none
    | none => none

/-- A number in decimal, `0x` hex or `0b` binary (R88). -/
def numberValue : List Char → Option Nat
  | [] => none
  | '0' :: 'x' :: c :: cs => digitsValue 16 0 (c :: cs)
  | '0' :: 'b' :: c :: cs => digitsValue 2 0 (c :: cs)
  | c :: cs => digitsValue 10 0 (c :: cs)

/-- A number of `width` bits. -/
def immediate (width : Nat) (cs : List Char) : Option (BitVec width) :=
  match numberValue cs with
  | some n => if n < 2 ^ width then some (BitVec.ofNat width n) else none
  | none => none

/-- The register names (R76, R88). -/
def registerNames : List (List Char × RegAddr) :=
  [("tick0".toList, 0x00), ("tick1".toList, 0x01), ("tick2".toList, 0x02), ("tick3".toList, 0x03),
   ("btn_state".toList, 0x04), ("off_state".toList, 0x05), ("polarity".toList, 0x06),
   ("led_mode_r".toList, 0x08), ("led_mode_g".toList, 0x09), ("led_mode_b".toList, 0x0A),
   ("flash_div".toList, 0x0B), ("duty_r".toList, 0x0C), ("duty_g".toList, 0x0D), ("duty_b".toList, 0x0E),
   ("flash_level".toList, 0x0F), ("flash_status".toList, 0x10), ("flash_sub".toList, 0x11),
   ("nv_ctrl".toList, 0x12), ("nv_offset".toList, 0x13), ("evmask".toList, 0x14)]

/-- The address of `desired[i]` or `programmed[i]` (R82, R88). -/
def windowAddr (name : List Char) (i : RecIndex) : Option RegAddr :=
  if name = "desired".toList then some (desiredAddr i)
  else if name = "programmed".toList then some (programmedAddr i)
  else none

/-- The register operand a line starts with, by its name or its address, and the tokens after it (R88). -/
def registerOperand : List Token → Option (RegAddr × List Token)
  | .word name :: .openBracket :: .word index :: .closeBracket :: ts =>
    match immediate 4 index with
    | some i => (windowAddr name i).map (fun a => (a, ts))
    | none => none
  | .word name :: ts =>
    match registerNames.lookup name with
    | some a => some (a, ts)
    | none => (immediate 6 name).map (fun a => (a, ts))
  | _ => none

/-- The channel a `set_mode` names (R89). -/
def channelOperand (cs : List Char) : Option Channel :=
  if cs = ['r'] then some .r else if cs = ['g'] then some .g else if cs = ['b'] then some .b else none

/-- The lines without an operand (R88, R89). -/
def plainLines : List (List Char × List Instr) :=
  [("pwm".toList, [.evPwm]), ("nvnotify".toList, [.evNvnotify]), ("nvdone".toList, [.evNvdone]),
   ("request_write".toList, Pseudo.requestWrite.expand), ("cs_enter".toList, Pseudo.csEnter.expand),
   ("cs_exit".toList, Pseudo.csExit.expand), ("read_tick_cs".toList, Pseudo.readTickCs.expand),
   ("read_tick".toList, Pseudo.readTick.expand), ("read_button".toList, Pseudo.readButton.expand),
   ("read_off".toList, Pseudo.readOff.expand)]

/-- `rd` and its operand (R88). -/
def assembleRd (ts : List Token) : Option (List Word) :=
  match registerOperand ts with
  | some (a, []) => some [rdWord a]
  | _ => none

/-- `wr` and its operands (R88). -/
def assembleWr (ts : List Token) : Option (List Word) :=
  match registerOperand ts with
  | some (a, [.comma, .word imm]) => (immediate 8 imm).map (fun d => [wrWord a d])
  | _ => none

/-- `tick` and its pin levels (R88). -/
def assembleTick : List Token → Option (List Word)
  | [.word b, .comma, .word o] =>
    match immediate 1 b, immediate 1 o with
    | some b, some o => some (words [.evTick (b.getLsbD 0) (o.getLsbD 0)])
    | _, _ => none
  | _ => none

/-- `set_mode` and its operands (R89). -/
def assembleSetMode : List Token → Option (List Word)
  | [.word c, .comma, .word m] =>
    match channelOperand c, immediate 8 m with
    | some c, some m => some (words (Pseudo.setMode c m).expand)
    | _, _ => none
  | _ => none

/-- `set_flash_speed` and its operand (R89). -/
def assembleSetFlashSpeed : List Token → Option (List Word)
  | [.word d] => (immediate 8 d).map (fun d => words (Pseudo.setFlashSpeed d).expand)
  | _ => none

/-- The words of one line (R88, R89); an empty line has none; a line of no such form is no text of this notation. -/
def assembleLine (line : String) : Option (List Word) :=
  match tokens [] line.toList with
  | [] => some []
  | .word m :: ts =>
    if m = "rd".toList then assembleRd ts
    else if m = "wr".toList then assembleWr ts
    else if m = "tick".toList then assembleTick ts
    else if m = "set_mode".toList then assembleSetMode ts
    else if m = "set_flash_speed".toList then assembleSetFlashSpeed ts
    else
      match ts with
      | [] => (plainLines.lookup m).map words
      | _ => none
  | _ => none

end Sys2Proof.Machine
end

