-- ==== Sys2Proof/Safety.lean ====
section
/-! DEFINITION. The terms the claims about the block are stated in: the spec's invariants (R25, R32, R33, R38, R52, R67),
the parts of the state an operation leaves alone (R45), and the spec's rules of one debounce sample, one waveform step and
one scan, written as relations. -/

namespace Sys2Proof.Safety

open Sys2Proof.Machine

/-! ### Invariants -/

/-- R25, for both Debounced Inputs: the hysteresis counter is below the threshold. -/
abbrev DebounceInv (s : State) : Prop :=
  s.btn.cnt.toNat < s.params.deglitchT ∧ s.off.cnt.toNat < s.params.deglitchT

/-- R32: the waveform rises only below 255 and falls only above 0. -/
abbrev WaveInv (s : State) : Prop :=
  (s.dirUp = true → s.level.toNat < 255) ∧ (s.dirUp = false → 0 < s.level.toNat)

/-- R38: the cursor is in the record or just past it, and within it while a reconciliation is pending. -/
abbrev ScanInv (s : State) : Prop :=
  s.offset.toNat ≤ s.params.recN ∧ (s.ie = true → s.offset.toNat < s.params.recN)

/-- R20: both copies of the state record hold REC_N bytes. -/
abbrev RecordInv (s : State) : Prop :=
  s.desired.length = s.params.recN ∧ s.programmed.length = s.params.recN

/-- The store is in canonical form and within its size (R40). -/
abbrev StoreInv (s : State) : Prop := Memory.wf s.nv ∧ Memory.within s.params.nvSize s.nv

/-- While a physical write is in progress a reconciliation is pending (R172), the write is to a byte of the state record
(R52), and its data is what the programmed copy holds of that byte (R35, R179). -/
abbrev BusyInv (s : State) : Prop :=
  s.nvBusy = true →
    s.ie = true ∧ s.params.stateBase ≤ s.nvPa.toNat ∧ s.nvPa.toNat < s.params.stateBase + s.params.recN ∧
    recordByte s.programmed (s.nvPa.toNat - s.params.stateBase) = s.nvPd

/-- The launch was well formed (R10) and the polarity is the launch's (R33). -/
abbrev LaunchInv (s : State) : Prop := launchOk s.params ∧ s.polarity = s.params.polarity

/-- The invariant of the block. -/
abbrev Inv (s : State) : Prop :=
  LaunchInv s ∧ DebounceInv s ∧ WaveInv s ∧ ScanInv s ∧ RecordInv s ∧ StoreInv s ∧ BusyInv s

/-- Where a completed write leaves the byte issued, the store holds the programmed copy, but for the one byte whose write is
in progress (R35, R67, R251). -/
abbrev StoreAgrees (s : State) : Prop :=
  s.params.nvWriteResult = .exact →
    ∀ i, i < s.params.recN →
      (s.nvBusy = true ∧ s.nvPa.toNat = s.params.stateBase + i) ∨
      Memory.read s.nv (s.params.stateBase + i) = recordByte s.programmed i

/-- Every byte below the scan cursor is reconciled (R183). -/
abbrev ReconciledBelowCursor (s : State) : Prop :=
  ∀ j, j < s.offset.toNat → recordByte s.desired j = recordByte s.programmed j

/-! ### What an operation leaves alone (R45) -/

/-- The debounce unit's fields are the same. -/
abbrev SameDebounce (s t : State) : Prop := t.tick = s.tick ∧ t.btn = s.btn ∧ t.off = s.off

/-- The LED unit's fields are the same. -/
abbrev SameLed (s t : State) : Prop :=
  t.duty = s.duty ∧ t.level = s.level ∧ t.dirUp = s.dirUp ∧ t.sub = s.sub

/-- The host's fields are the same. -/
abbrev SameHost (s t : State) : Prop :=
  t.ledMode = s.ledMode ∧ t.flashDiv = s.flashDiv ∧ t.desired = s.desired ∧ t.evmask = s.evmask

/-- The NV unit's fields are the same. -/
abbrev SameNv (s t : State) : Prop :=
  t.programmed = s.programmed ∧ t.offset = s.offset ∧ t.ie = s.ie

/-- Every byte of the store is the same, and so is the write in progress. -/
abbrev SameStore (s t : State) : Prop :=
  (∀ a, Memory.read t.nv a = Memory.read s.nv a) ∧ t.nvBusy = s.nvBusy ∧ t.nvPa = s.nvPa ∧ t.nvPd = s.nvPd

/-- The session's constants and the words still to come are the same. -/
abbrev SameSession (s t : State) : Prop :=
  t.polarity = s.polarity ∧ t.params = s.params ∧ t.inbox = s.inbox

/-! ### Words of one register -/

/-- The read `i` of a register: `w` is its word; `w` with any nonzero `w[7:0]` is illegal; in every state it returns the
byte `value`, and writes nothing (R71, R75, R203). -/
abbrev ReadsAs (w : Word) (i : Instr) (value : State → Byte) : Prop :=
  (∀ recN, decode recN w = .ok i ∧
    ∀ d : Byte, d ≠ 0 → decode recN (w ||| d.setWidth 16) = .error (.illegalWord (w ||| d.setWidth 16))) ∧
  ∀ s : State, exec i s = .next { s with outbox := s.outbox ++ [value s] }

/-- The words of a register's writes: `w0 + d` is the write of the byte `d` (R72, R90). -/
abbrev WritesAs (w0 : Nat) (i : Byte → Instr) : Prop :=
  ∀ recN d, decode recN (BitVec.ofNat 16 (w0 + d.toNat)) = .ok (i d)

/-- A write of the register at `a` is a ReadOnlyWrite (R85). -/
abbrev ReadOnlyAt (a : RegAddr) : Prop :=
  ∀ recN d, decode recN (wrWord a d) = .error (.readOnlyWrite (wrWord a d) a)

/-! ### The units' rules as relations -/

/-- R101: what one sample `r` makes of a Debounced Input, with threshold `T`. -/
abbrev DebRule (T : Nat) (r : Bool) (d d' : Deb) : Prop :=
  d'.raw = r ∧
  (r = d.stable → d'.cnt = 0 ∧ d'.stable = d.stable) ∧
  (r ≠ d.stable → d.cnt.toNat + 1 = T → d'.cnt = 0 ∧ d'.stable = r) ∧
  (r ≠ d.stable → d.cnt.toNat + 1 ≠ T → d'.cnt.toNat = d.cnt.toNat + 1 ∧ d'.stable = d.stable)

/-- R131: the duty of mode `m` at level `l`: OFF 0, ON 255, FLASH `l`, FLASH-INVERTED `255 - l`. -/
abbrev DutyRule (m : LedMode) (l d : Byte) : Prop :=
  (m = 0b00 → d.toNat = 0) ∧ (m = 0b01 → d.toNat = 255) ∧ (m = 0b10 → d.toNat = l.toNat) ∧
  (m = 0b11 → d.toNat = 255 - l.toNat)

/-- R132: what one PWM event makes of the waveform. -/
abbrev WaveRule (s t : State) : Prop :=
  (s.sub.toNat = 1 →
    t.sub = s.flashDiv ∧
    (s.dirUp = true → t.level.toNat = s.level.toNat + 1) ∧
    (s.dirUp = false → t.level.toNat + 1 = s.level.toNat) ∧
    (t.level.toNat = 0 → t.dirUp = true) ∧
    (t.level.toNat = 255 → t.dirUp = false) ∧
    (0 < t.level.toNat → t.level.toNat < 255 → t.dirUp = s.dirUp)) ∧
  (s.sub.toNat ≠ 1 →
    t.sub.toNat = (s.sub.toNat + 255) % 256 ∧ t.level = s.level ∧ t.dirUp = s.dirUp)

/-- The two Debounced Inputs (R6, R24). -/
inductive Input where
  | button
  | offSignal
deriving DecidableEq, Repr

/-- The Debounced Input `x` of a state (R24). -/
def inputOf (s : State) : Input → Deb
  | .button => s.btn
  | .offSignal => s.off

/-- The polarity-corrected sample of input `x` in a TICK with the pin levels `p` (button, power-off signal) (R100). -/
def sampleOf (s : State) (p : Bool × Bool) : Input → Bool
  | .button => p.1 ^^ s.polarity.getLsbD 0
  | .offSignal => p.2 ^^ s.polarity.getLsbD 1

/-- How many PWM events the sub-tick value `d` stands for: 0 acts as 256 (R149). -/
abbrev interval (d : Byte) : Nat := if d.toNat = 0 then 256 else d.toNat

/-- Byte `i` of the desired copy differs from the programmed copy. -/
abbrev Differs (s : State) (i : Nat) : Prop := recordByte s.desired i ≠ recordByte s.programmed i

/-- How many bytes of the record differ. -/
abbrev differing (s : State) : Nat := ((List.range s.params.recN).filter (fun i => decide (Differs s i))).length

/-- `n` PWM events. -/
abbrev pwms (n : Nat) : List Instr := List.replicate n .evPwm

/-- TICK events, one for each pair of pin levels (button, power-off signal). -/
abbrev ticks (pins : List (Bool × Bool)) : List Instr := pins.map (fun p => .evTick p.1 p.2)

/-- `n` notifications, each followed by the completion of the write it issued. -/
def rounds : Nat → List Instr
  | 0 => []
  | n + 1 => .evNvnotify :: .evNvdone :: rounds n

/-- The operation is a TICK event. -/
def isTick : Instr → Bool
  | .evTick _ _ => true
  | _ => false

/-- The operation is a write of EVMASK. -/
def isWrEvmask : Instr → Bool
  | .wrEvmask _ => true
  | _ => false

/-- The operation is an event (R73). -/
def eventOf : Instr → Option Event
  | .evTick _ _ => some .tick
  | .evPwm => some .pwm
  | .evNvnotify => some .nvNotify
  | .evNvdone => some .nvDone
  | _ => none

end Sys2Proof.Safety
end

