-- ==== Sys2Proof/Certificates/Slice0/Obligations.lean ====
section
/-! DEFINITION. The statements about the block, for the provers. Each docstring names the rule of the spec it formalises. -/

open Sys2Proof Sys2Proof.Machine Sys2Proof.Safety

/-! ### Decoding (30_encoding.md) -/

/-- R75, R90: decoding the word of any operation of the launch gives the operation back, with every operand at every value. -/
def Obligations.DecodeOfEncodeIsIdentity : Prop :=
  ∀ (recN : Nat) (i : Instr), i.wf recN = true → decode recN (encode i) = .ok i

/-- R75, R70: a word has one meaning: what it decodes to is an operation of the launch, and encodes to that word. -/
def Obligations.EncodeOfDecodeIsIdentity : Prop :=
  ∀ (recN : Nat) (w : Word) (i : Instr), decode recN w = .ok i → encode i = w ∧ i.wf recN = true

/-- R85 in the order of R75 and R220, on the word's value: kind `w / 2^14`, address `w / 2^8 mod 64`, data `w mod 256`, event
code `w / 2^10 mod 16`, reserved event bits `w / 4 mod 256`, pins `w mod 4`. -/
def Obligations.IllegalWordsFaultInOrder : Prop :=
  ∀ (recN : Nat) (w : Word), 1 ≤ recN → recN ≤ 16 →
    let k := w.toNat / 2 ^ 14
    let a := w.toNat / 2 ^ 8 % 64
    let e := w.toNat / 2 ^ 10 % 16
    let illegal := k = 3 ∨ (k = 0 ∧ w.toNat % 256 ≠ 0) ∨
      (k = 2 ∧ (4 ≤ e ∨ w.toNat / 4 % 256 ≠ 0 ∨ (e ≠ 0 ∧ w.toNat % 4 ≠ 0)))
    let unmapped := k < 2 ∧ (a = 0x07 ∨ (0x15 ≤ a ∧ a ≤ 0x1F) ∨ (0x20 ≤ a ∧ recN ≤ a % 16))
    let readOnly := k = 1 ∧ (a ≤ 0x06 ∨ (0x0C ≤ a ∧ a ≤ 0x11) ∨ a = 0x13 ∨ 0x30 ≤ a)
    (illegal → decode recN w = .error (.illegalWord w)) ∧
    (¬ illegal → unmapped → decode recN w = .error (.unmappedAccess w (BitVec.ofNat 6 a))) ∧
    (¬ illegal → ¬ unmapped → readOnly → decode recN w = .error (.readOnlyWrite w (BitVec.ofNat 6 a))) ∧
    (¬ illegal → ¬ unmapped → ¬ readOnly → ∃ i, decode recN w = .ok i)

/-- Words written out from R90 and 95_test_vectors.md, one for each family (sanity). -/
def Obligations.SampleWordsDecodeAsWritten : Prop :=
  decode 3 0x0300 = .ok .rdTick3 ∧ decode 3 0x48FE = .ok (.wrLedModeR 0xFE) ∧
  decode 3 0x5201 = .ok (.wrNvCtrl 0x01) ∧ decode 3 0x6142 = .ok (.wrDesired 1 0x42) ∧
  decode 3 0x3000 = .ok (.rdProgrammed 0) ∧ decode 3 0x5401 = .ok (.wrEvmask 0x01) ∧
  decode 3 0x8002 = .ok (.evTick false true) ∧ decode 3 0x8400 = .ok .evPwm ∧
  decode 3 0x8800 = .ok .evNvnotify ∧ decode 3 0x8C00 = .ok .evNvdone ∧
  decode 1 0x7100 = .error (.unmappedAccess 0x7100 0x31) ∧ decode 1 0x7000 = .error (.readOnlyWrite 0x7000 0x30)

/-- R88, R89: lines of text and the words they stand for: a register by name and by address, both record windows, numbers in
decimal, hex and binary, case and comments, each event, each pseudo-instruction; an 8-bit number past 255 is no text (sanity). That a line with a comment alone has no words is
the model's reading (log 15). -/
def Obligations.TextLinesAssembleAsWritten : Prop :=
  assembleLine "rd tick3" = some [0x0300] ∧ assembleLine "rd 0x04" = some [0x0400] ∧
  assembleLine "WR led_mode_r, 0xFE ; ON ignored" = some [0x48FE] ∧ assembleLine "wr flash_div, 10" = some [0x4B0A] ∧
  assembleLine "wr desired[2], 0b101" = some [0x6205] ∧ assembleLine "rd desired[15]" = some [0x2F00] ∧
  assembleLine "rd programmed[0]" = some [0x3000] ∧ assembleLine "wr flash_div, 256" = none ∧
  assembleLine "tick 1, 0" = some [0x8001] ∧ assembleLine "tick 0, 1" = some [0x8002] ∧
  assembleLine "pwm" = some [0x8400] ∧ assembleLine "nvnotify" = some [0x8800] ∧ assembleLine "nvdone" = some [0x8C00] ∧
  assembleLine "set_mode r, 2" = some [0x4802] ∧ assembleLine "set_mode g, 3" = some [0x4903] ∧
  assembleLine "set_mode b, 1" = some [0x4A01] ∧ assembleLine "set_flash_speed 2" = some [0x4B02] ∧
  assembleLine "request_write" = some [0x5201] ∧ assembleLine "cs_enter" = some [0x5401] ∧
  assembleLine "cs_exit" = some [0x5400] ∧
  assembleLine "read_tick_cs" = some [0x5401, 0x0000, 0x0100, 0x0200, 0x0300, 0x5400] ∧
  assembleLine "read_tick" = some [0x0000, 0x0100, 0x0200, 0x0300, 0x0000] ∧
  assembleLine "read_button" = some [0x0400] ∧ assembleLine "read_off" = some [0x0500] ∧
  assembleLine "  ; a comment alone" = some []

/-! ### The step (20_memory.md, 60_exceptions.md) -/

/-- R57, R61, R75: where no fault is recorded and the next word decodes to an operation, the step takes the word and runs
that operation; nothing else happens around it. -/
def Obligations.StepRunsDecodedWord : Prop :=
  ∀ (s : State) (w : Word) (ws : List Word) (i : Instr),
    s.fault = none → s.inbox = w :: ws → decode s.params.recN w = .ok i →
    step s = exec i { s with inbox := ws }

/-- Where no agent issues a word there is no step: the model's choice (log 1). -/
def Obligations.NoWordNoStep : Prop :=
  ∀ (s : State), s.fault = none → s.inbox = [] → step s = .refused .noTransaction

/-- An operation of the launch placed as the next word is the one the very next step runs, on the state it was placed in. Placing
a word is the model's own interface, `withFetchWord`, for an agent issuing it next (log 1). -/
def Obligations.PlacedOperationRunsNext : Prop :=
  ∀ (s : State) (i : Instr), s.fault = none → i.wf s.params.recN = true →
    step (s.withFetchWord 16 (encode i).toNat) = exec i s

/-- R212: raising a fault records it with its values, changes nothing else and ends the step; the faulted state has no
further step. The word is one an agent issues that is no operation (R75). -/
def Obligations.FaultIsRecordedAndFinal : Prop :=
  ∀ (s : State) (w : Word) (ws : List Word) (e : DecodeError),
    s.fault = none → s.inbox = w :: ws → decode s.params.recN w = .error e →
    step s = .next { s with inbox := ws, fault := some (faultOf e) } ∧
    ∀ (t : State) (k : Fault), t.fault = some k → step t = .fault k

/-- R42, R212: no operation clears the fault record, and only a record-window access past `REC_N` writes it. -/
def Obligations.OnlyRecordAccessesRaiseFaults : Prop :=
  ∀ (i : Instr) (s t : State), exec i s = .next t →
    (i.wf s.params.recN = true → t.fault = s.fault) ∧
    (i.wf s.params.recN = false →
      ∃ a, t = { s with fault := some (.unmappedAccess (encode i) a) } ∧
        a.toNat = (encode i).toNat / 2 ^ 8 % 64)

/-- R203: a host transaction of the launch has its effect in every state without a fault, whatever `evmask` is. That the meaning
answers in a faulted state too is the model's choice (log 11): the step runs none there (R212). -/
def Obligations.HostTransactionsAlwaysStep : Prop :=
  ∀ (i : Instr) (s : State), (i.isRead = true ∨ i.isWrite = true) → i.wf s.params.recN = true →
    ∃ t, exec i s = .next t ∧ t.fault = s.fault ∧ t.inbox = s.inbox

/-! ### Host reads -/

/-- R102 to R105 and R53: the four byte lanes of the Tick Counter, little-endian, in arithmetic; a read writes nothing. -/
def Obligations.TickLanesReadLittleEndian : Prop :=
  ReadsAs 0x0000 .rdTick0 (fun s => BitVec.ofNat 8 s.tick.toNat) ∧
  ReadsAs 0x0100 .rdTick1 (fun s => BitVec.ofNat 8 (s.tick.toNat / 256)) ∧
  ReadsAs 0x0200 .rdTick2 (fun s => BitVec.ofNat 8 (s.tick.toNat / 65536)) ∧
  ReadsAs 0x0300 .rdTick3 (fun s => BitVec.ofNat 8 (s.tick.toNat / 16777216))

/-- R106, R107, R77: bit 1 is `raw`, bit 0 is `stable`, the other bits are 0. -/
def Obligations.InputStateReads : Prop :=
  ReadsAs 0x0400 .rdBtnState (fun s => BitVec.ofNat 8 (2 * s.btn.raw.toNat + s.btn.stable.toNat)) ∧
  ReadsAs 0x0500 .rdOffState (fun s => BitVec.ofNat 8 (2 * s.off.raw.toNat + s.off.stable.toNat))

/-- R108: the polarity is read as it is, and cannot be written. -/
def Obligations.PolarityReadsAndIsReadOnly : Prop :=
  ReadsAs 0x0600 .rdPolarity (fun s => s.polarity) ∧ ReadOnlyAt 0x06

/-- R133 to R135: a mode is read zero-extended; bits 7:2 read 0 whatever was written. -/
def Obligations.LedModeReads : Prop :=
  ReadsAs 0x0800 .rdLedModeR (fun s => BitVec.ofNat 8 s.ledMode.r.toNat) ∧
  ReadsAs 0x0900 .rdLedModeG (fun s => BitVec.ofNat 8 s.ledMode.g.toNat) ∧
  ReadsAs 0x0A00 .rdLedModeB (fun s => BitVec.ofNat 8 s.ledMode.b.toNat) ∧
  ∀ (d : Byte) (s t u : State),
    (exec (.wrLedModeR d) s = .next t → exec .rdLedModeR t = .next u →
      u.outbox = s.outbox ++ [BitVec.ofNat 8 (d.toNat % 4)]) ∧
    (exec (.wrLedModeG d) s = .next t → exec .rdLedModeG t = .next u →
      u.outbox = s.outbox ++ [BitVec.ofNat 8 (d.toNat % 4)]) ∧
    (exec (.wrLedModeB d) s = .next t → exec .rdLedModeB t = .next u →
      u.outbox = s.outbox ++ [BitVec.ofNat 8 (d.toNat % 4)])

/-- R139, R141 to R146: the divisor, the duty registers and the waveform as the host reads them; all but the divisor are
read-only. By R32 the direction reads up at level 0 and down at level 255. -/
def Obligations.DutyAndWaveformReads : Prop :=
  (ReadsAs 0x0B00 .rdFlashDiv (fun s => s.flashDiv)) ∧
  (ReadsAs 0x0C00 .rdDutyR (fun s => s.duty.r) ∧ ReadOnlyAt 0x0C) ∧
  (ReadsAs 0x0D00 .rdDutyG (fun s => s.duty.g) ∧ ReadOnlyAt 0x0D) ∧
  (ReadsAs 0x0E00 .rdDutyB (fun s => s.duty.b) ∧ ReadOnlyAt 0x0E) ∧
  (ReadsAs 0x0F00 .rdFlashLevel (fun s => s.level) ∧ ReadOnlyAt 0x0F) ∧
  (ReadsAs 0x1000 .rdFlashStatus (fun s => BitVec.ofNat 8 s.dirUp.toNat) ∧ ReadOnlyAt 0x10) ∧
  (ReadsAs 0x1100 .rdFlashSub (fun s => s.sub) ∧ ReadOnlyAt 0x11) ∧
  ∀ s : State, WaveInv s →
    (s.level.toNat = 0 → s.dirUp.toNat = 1) ∧ (s.level.toNat = 255 → s.dirUp.toNat = 0)

/-- R172, R173, R200: NV_CTRL reads `nv_ready` in bit 1 and `ie` in bit 0; the cursor is read-only; EVMASK reads `evmask` in
bit 0. NV_CTRL never reads 0 in a state of the invariant. -/
def Obligations.NvAndHoldReads : Prop :=
  ReadsAs 0x1200 .rdNvCtrl
    (fun s => BitVec.ofNat 8 (2 * (1 - s.nvBusy.toNat) + s.ie.toNat)) ∧
  (ReadsAs 0x1300 .rdNvOffset (fun s => s.offset) ∧ ReadOnlyAt 0x13) ∧
  ReadsAs 0x1400 .rdEvmask (fun s => BitVec.ofNat 8 s.evmask.toNat) ∧
  ∀ s : State, Inv s → 2 * (1 - s.nvBusy.toNat) + s.ie.toNat ≠ 0

/-- R174, R176: byte `i` of either copy of the record is returned and nothing is written, and the programmed copy cannot be
written; at `i >= REC_N` the access raises UnmappedAccess with its word and address, and nothing else changes. -/
def Obligations.RecordReads : Prop :=
  ∀ (s : State) (i : RecIndex),
    (RecordInv s → i.toNat < s.params.recN →
      decode s.params.recN (BitVec.ofNat 16 (0x2000 + 256 * i.toNat)) = .ok (.rdDesired i) ∧
      decode s.params.recN (BitVec.ofNat 16 (0x3000 + 256 * i.toNat)) = .ok (.rdProgrammed i) ∧
      (∀ d, decode s.params.recN (wrWord (programmedAddr i) d) =
        .error (.readOnlyWrite (wrWord (programmedAddr i) d) (programmedAddr i))) ∧
      ∃ d p, s.desired[i.toNat]? = some d ∧ s.programmed[i.toNat]? = some p ∧
        exec (.rdDesired i) s = .next { s with outbox := s.outbox ++ [d] } ∧
        exec (.rdProgrammed i) s = .next { s with outbox := s.outbox ++ [p] }) ∧
    (s.params.recN ≤ i.toNat →
      exec (.rdDesired i) s = .next { s with fault := some (.unmappedAccess
        (BitVec.ofNat 16 (0x2000 + 256 * i.toNat)) (BitVec.ofNat 6 (0x20 + i.toNat))) } ∧
      exec (.rdProgrammed i) s = .next { s with fault := some (.unmappedAccess
        (BitVec.ofNat 16 (0x3000 + 256 * i.toNat)) (BitVec.ofNat 6 (0x30 + i.toNat))) })

/-- R56: a read of the launch changes no field, so two reads with no step between them return the same byte. -/
def Obligations.ReadsHaveNoSideEffect : Prop :=
  ∀ (i : Instr) (s : State), i.isRead = true → i.wf s.params.recN = true →
    ∃ v, exec i s = .next { s with outbox := s.outbox ++ [v] } ∧
      exec i { s with outbox := s.outbox ++ [v] } = .next { s with outbox := s.outbox ++ [v, v] }

/-! ### Host writes -/

/-- R136 to R138: a mode write takes `D[1:0]` and changes that channel's mode only; no duty register changes before the
next PWM event, which derives the duty from the new mode. -/
def Obligations.LedModeWritesTakeLowBits : Prop :=
  WritesAs 0x4800 .wrLedModeR ∧ WritesAs 0x4900 .wrLedModeG ∧ WritesAs 0x4A00 .wrLedModeB ∧
  ∀ (d : Byte) (s : State),
    let m := BitVec.ofNat 2 (d.toNat % 4)
    exec (.wrLedModeR d) s = .next { s with ledMode := { s.ledMode with r := m } } ∧
    exec (.wrLedModeG d) s = .next { s with ledMode := { s.ledMode with g := m } } ∧
    exec (.wrLedModeB d) s = .next { s with ledMode := { s.ledMode with b := m } } ∧
    ∀ t u, exec .evPwm t = .next u →
      (exec (.wrLedModeR d) s = .next t → DutyRule m s.level u.duty.r) ∧
      (exec (.wrLedModeG d) s = .next t → DutyRule m s.level u.duty.g) ∧
      (exec (.wrLedModeB d) s = .next t → DutyRule m s.level u.duty.b)

/-- R140, R248: a divisor write changes the divisor only; the interval already running keeps its length: the waveform steps
first at the PWM event that ends it, and the new divisor governs the next interval. -/
def Obligations.FlashDivWriteTakesEffectAtNextReload : Prop :=
  WritesAs 0x4B00 .wrFlashDiv ∧
  ∀ (d : Byte) (s : State), exec (.wrFlashDiv d) s = .next { s with flashDiv := d } ∧
    (s.evmask = false → s.fault = none →
      ∀ n, ∃ u, runAll (.wrFlashDiv d :: pwms n) s = .next u ∧ u.flashDiv = d ∧
        (n < interval s.sub → u.level = s.level ∧ u.dirUp = s.dirUp) ∧
        (n = interval s.sub → u.sub = d ∧ u.level ≠ s.level))

/-- R171, R80: bit 0 set restarts the scan at offset 0 and enables the notification, whatever was pending; bit 0 clear does
nothing; nothing else changes, neither copy, nor a write in progress. -/
def Obligations.NvCtrlWriteRequestsOrDoesNothing : Prop :=
  WritesAs 0x5200 .wrNvCtrl ∧
  ∀ (d : Byte) (s : State),
    (d.toNat % 2 = 1 → exec (.wrNvCtrl d) s = .next { s with offset := 0, ie := true }) ∧
    (d.toNat % 2 = 0 → exec (.wrNvCtrl d) s = .next s)

/-- R175: a desired-copy write sets byte `i` and leaves every other byte and field, the cursor and the pending flag among
them; at `i >= REC_N` it raises UnmappedAccess. -/
def Obligations.DesiredWriteSetsOneByte : Prop :=
  ∀ (i : RecIndex) (d : Byte) (s : State),
    (RecordInv s → i.toNat < s.params.recN →
      decode s.params.recN (BitVec.ofNat 16 (0x6000 + 256 * i.toNat + d.toNat)) = .ok (.wrDesired i d) ∧
      ∃ ds, exec (.wrDesired i d) s = .next { s with desired := ds } ∧
        ds.length = s.params.recN ∧ ds[i.toNat]? = some d ∧ ∀ j, j ≠ i.toNat → ds[j]? = s.desired[j]?) ∧
    (s.params.recN ≤ i.toNat →
      exec (.wrDesired i d) s = .next { s with fault := some (.unmappedAccess
        (BitVec.ofNat 16 (0x6000 + 256 * i.toNat + d.toNat)) (BitVec.ofNat 6 (0x20 + i.toNat))) })

/-- R201, R81: the hold takes `D[0]` and nothing else changes; under it TICK, PWM and NVNOTIFY have no step and NVDONE still
has its own; holds do not nest: one write of 0 ends any number of writes of 1. -/
def Obligations.EvmaskWriteTakesBitZero : Prop :=
  WritesAs 0x5400 .wrEvmask ∧
  ∀ (d : Byte) (s : State),
    exec (.wrEvmask d) s = .next { s with evmask := decide (d.toNat % 2 = 1) } ∧
    (d.toNat % 2 = 1 → ∀ t, exec (.wrEvmask d) s = .next t →
      (∀ b o, exec (.evTick b o) t = .refused (.notEnabled .tick)) ∧
      exec .evPwm t = .refused (.notEnabled .pwm) ∧ exec .evNvnotify t = .refused (.notEnabled .nvNotify) ∧
      (Inv s → s.nvBusy = true → ∃ u, exec .evNvdone t = .next u)) ∧
    (s.fault = none → ∀ n,
      runAll (List.replicate n (.wrEvmask 0x01) ++ [.wrEvmask 0x00]) s = .next { s with evmask := false })

/-- R58: writing the same byte twice in a row leaves the same state as writing it once. -/
def Obligations.WritesAreIdempotent : Prop :=
  ∀ (i : Instr) (s t : State), i.isWrite = true → i.wf s.params.recN = true →
    exec i s = .next t → exec i t = .next t

/-! ### Events -/

/-- R213, R215, R216: from a state of the invariant an event has a step exactly when it is enabled (TICK and PWM while
`evmask` is 0; NVNOTIFY while also `ie` is 1 and the store is idle; NVDONE while the store is busy), and an event that is
not enabled has none: it is no fault. -/
def Obligations.EventsStepExactlyWhenEnabled : Prop :=
  ∀ (i : Instr) (e : Event) (s : State), Inv s → eventOf i = some e →
    let enabled := match e with
      | .tick => s.evmask = false
      | .pwm => s.evmask = false
      | .nvNotify => s.ie = true ∧ s.nvBusy = false ∧ s.evmask = false
      | .nvDone => s.nvBusy = true
    (enabled → ∃ t, exec i s = .next t ∧ t.fault = s.fault) ∧
    (¬ enabled → exec i s = .refused (.notEnabled e))

/-- R100, R101: a TICK adds 1 to the counter modulo 2^32 and takes one polarity-corrected sample of each input, each
independently; nothing else changes. -/
def Obligations.TickCountsAndSamplesBothInputs : Prop :=
  ∀ (b o : Bool) (s : State), s.evmask = false → DebounceInv s → s.params.deglitchT ≤ 65535 →
    (∀ recN, decode recN (BitVec.ofNat 16 (0x8000 + 2 * o.toNat + b.toNat)) = .ok (.evTick b o)) ∧
    ∃ t, exec (.evTick b o) s = .next t ∧
      t.tick.toNat = (s.tick.toNat + 1) % 2 ^ 32 ∧
      DebRule s.params.deglitchT (b ^^ s.polarity.getLsbD 0) s.btn t.btn ∧
      DebRule s.params.deglitchT (o ^^ s.polarity.getLsbD 1) s.off t.off ∧
      t = { s with tick := t.tick, btn := t.btn, off := t.off }

/-- R130 to R132 (the word 0x8400): a PWM event derives every duty from the mode and the level before it, then steps the waveform;
nothing else changes. -/
def Obligations.PwmDerivesDutiesThenStepsWave : Prop :=
  (∀ recN, decode recN 0x8400 = .ok .evPwm) ∧
  ∀ (s : State), s.evmask = false → WaveInv s →
    ∃ t, exec .evPwm s = .next t ∧
      (∀ c, DutyRule (s.ledMode.get c) s.level (t.duty.get c)) ∧
      WaveRule s t ∧
      t = { s with duty := t.duty, level := t.level, dirUp := t.dirUp, sub := t.sub }

/-- R148: in one PWM event all FLASH channels get one duty and every FLASH-INVERTED channel gets 255 minus it; an OFF channel
gets 0 and an ON channel 255, whatever the waveform. -/
def Obligations.FlashingChannelsAreSynchronised : Prop :=
  ∀ (s t : State), exec .evPwm s = .next t →
    ∀ c c' : Channel,
      (s.ledMode.get c = 0b10 → s.ledMode.get c' = 0b10 → t.duty.get c = t.duty.get c') ∧
      (s.ledMode.get c = 0b10 → s.ledMode.get c' = 0b11 →
        (t.duty.get c').toNat = 255 - (t.duty.get c).toNat) ∧
      (s.ledMode.get c = 0b00 → (t.duty.get c).toNat = 0) ∧
      (s.ledMode.get c = 0b01 → (t.duty.get c).toNat = 255)

/-- R178, R179: the scan. Where byte `k` is the first from the cursor on that differs, the programmed copy takes it, its write
is issued to `STATE_BASE + k` and the cursor stays on it; where no byte from the cursor on differs, nothing is issued, the
cursor ends at `REC_N` and the notification is disabled. Nothing else changes. From a cursor at or past `REC_N`, which no
state of the invariant with `ie` 1 has (D40), the notification is disabled and nothing else. -/
def Obligations.NotifyScansToFirstDifference : Prop :=
  (∀ recN, decode recN 0x8800 = .ok .evNvnotify) ∧
  ∀ (s : State), s.ie = true → s.nvBusy = false → s.evmask = false →
    (Inv s →
      (∀ k, s.offset.toNat ≤ k → k < s.params.recN → Differs s k →
        (∀ j, s.offset.toNat ≤ j → j < k → ¬ Differs s j) →
        exec .evNvnotify s = .next { s with
          programmed := s.programmed.set k (recordByte s.desired k)
          offset := BitVec.ofNat 8 k
          nvBusy := true
          nvPa := BitVec.ofNat 16 (s.params.stateBase + k)
          nvPd := recordByte s.desired k }) ∧
      ((∀ j, s.offset.toNat ≤ j → j < s.params.recN → ¬ Differs s j) →
        exec .evNvnotify s = .next { s with offset := BitVec.ofNat 8 s.params.recN, ie := false })) ∧
    (s.params.recN ≤ s.offset.toNat → exec .evNvnotify s = .next { s with ie := false })

/-- R180, R185 (the word 0x8C00): the completion of a write leaves the byte issued (`exact`), or a free byte, whatever it is
(`any`; the free byte is a constant without a value, log 5), at the address in progress and nowhere else, and frees the store,
whatever the hold. Nothing else of the block changes, under either. -/
def Obligations.NvdoneWritesOneStoreByte : Prop :=
  (∀ recN, decode recN 0x8C00 = .ok .evNvdone) ∧
  ∀ (s : State), StoreInv s → s.nvBusy = true → s.nvPa.toNat < s.params.nvSize →
    ∃ t, exec .evNvdone s = .next t ∧
      (s.params.nvWriteResult = .exact → Memory.read t.nv s.nvPa.toNat = s.nvPd) ∧
      (s.params.nvWriteResult = .any → ∃ n, Memory.read t.nv s.nvPa.toNat = Config.drawByte n) ∧
      (∀ a, a ≠ s.nvPa.toNat → Memory.read t.nv a = Memory.read s.nv a) ∧
      t = { s with nv := t.nv, nvBusy := false, draws := t.draws }

/-- The model's choice (log 6): a completion faults exactly where a write is in progress to an address at or past `NV_SIZE`, which
does not exist (R40, R50). Below `NV_SIZE` it has its step, and in every state of the invariant the address is below it (R52). -/
def Obligations.NvdoneFaultsOnlyPastTheStore : Prop :=
  ∀ (s : State),
    (∀ k, exec .evNvdone s = .fault k ↔
      s.nvBusy = true ∧ s.params.nvSize ≤ s.nvPa.toNat ∧ k = .noStoreByte s.nvPa) ∧
    (s.nvBusy = true → s.nvPa.toNat < s.params.nvSize → ∃ t, exec .evNvdone s = .next t) ∧
    (Inv s → s.nvBusy = true → s.nvPa.toNat < s.params.nvSize)

/-! ### Invariants -/

/-- The block's invariant is kept by every step, from every state that has it. -/
def Obligations.StepKeepsTheInvariant : Prop :=
  ∀ (s t : State), Inv s → step s = .next t → Inv t

/-- R25: the hysteresis counters stay below the threshold; a TICK whose sample agrees leaves the counter at 0. -/
def Obligations.StepKeepsHysteresisBelowThreshold : Prop :=
  (∀ (s t : State), DebounceInv s → step s = .next t → DebounceInv t) ∧
  ∀ (b o : Bool) (s t : State), exec (.evTick b o) s = .next t →
    ((b ^^ s.polarity.getLsbD 0) = s.btn.stable → t.btn.cnt = 0) ∧
    ((o ^^ s.polarity.getLsbD 1) = s.off.stable → t.off.cnt = 0)

/-- R32: the direction is up below 255 only and down above 0 only, at launch and after every step; so the level moves by at
most one in a step and never wraps. -/
def Obligations.WaveformNeverWraps : Prop :=
  (∀ (p : Config.Params) (s : State), State.launch p = .next s → WaveInv s) ∧
  ∀ (s t : State), WaveInv s → step s = .next t →
    WaveInv t ∧ t.level.toNat ≤ s.level.toNat + 1 ∧ s.level.toNat ≤ t.level.toNat + 1

/-- R38: `offset <= REC_N`, and `offset < REC_N` while `ie` is 1, at launch and after every step. -/
def Obligations.CursorStaysInTheRecord : Prop :=
  (∀ (p : Config.Params) (s : State), State.launch p = .next s → ScanInv s) ∧
  ∀ (s t : State), launchOk s.params → ScanInv s → step s = .next t → ScanInv t

/-- Every step keeps the store in canonical form and within its size. -/
def Obligations.StepKeepsStoreCanonical : Prop :=
  ∀ (s t : State), StoreInv s → step s = .next t → StoreInv t

/-- R52, R50: no step changes a byte of the configuration record, nor any byte outside the state record. -/
def Obligations.OnlyTheStateRecordIsWritten : Prop :=
  ∀ (s t : State), Inv s → step s = .next t →
    (∀ a, a < s.params.stateBase ∨ s.params.stateBase + s.params.recN ≤ a →
      Memory.read t.nv a = Memory.read s.nv a) ∧
    loadConfigRecord t.params t.nv = loadConfigRecord s.params s.nv

/-- R35, R67, R251: where a completed write leaves the byte issued, the store agrees with the programmed copy but for the one
byte whose write is in progress: at launch, and after every step. -/
def Obligations.StoreFollowsProgrammedCopy : Prop :=
  (∀ (p : Config.Params) (s : State), State.launch p = .next s → StoreAgrees s) ∧
  ∀ (s t : State), Inv s → StoreAgrees s → step s = .next t → StoreAgrees t

/-- R33, R9: no step changes the polarity or a launch parameter. -/
def Obligations.PolarityAndParametersAreConstant : Prop :=
  ∀ (s t : State), step s = .next t → t.polarity = s.polarity ∧ t.params = s.params

/-! ### Reset (70_reset_and_hazards.md) -/

/-- R46, R241, R242, R243: what a launch of a well-formed configuration leaves, and which events it leaves enabled. The two
fields the spec leaves unspecified (`nv_pa`, `nv_pd`) and the model's own are not named. -/
def Obligations.LaunchLeavesResetValues : Prop :=
  ∀ (p : Config.Params), launchOk p →
    ∃ s, State.launch p = .next s ∧
      s.tick = 0 ∧ s.btn = ⟨false, 0, false⟩ ∧ s.off = ⟨false, 0, false⟩ ∧
      s.ledMode = ⟨0b00, 0b00, 0b00⟩ ∧ s.duty = ⟨0, 0, 0⟩ ∧
      s.level = 0 ∧ s.dirUp = true ∧ s.sub = p.flashDivInit ∧ s.flashDiv = p.flashDivInit ∧
      s.polarity = p.polarity ∧ s.params = p ∧
      (∀ i, i < p.recN → s.desired[i]? = some (Memory.read s.nv (p.stateBase + i))) ∧
      s.desired.length = p.recN ∧ s.programmed = s.desired ∧
      s.offset = 0 ∧ s.ie = false ∧ s.evmask = false ∧ s.nvBusy = false ∧ s.fault = none ∧
      s.enabled .tick = true ∧ s.enabled .pwm = true ∧ s.enabled .nvNotify = false

/-- The store a launch starts with holds `NV_INIT`: a byte listed once reads as listed, a byte not listed as 0 (log 7). -/
def Obligations.LaunchStoreHoldsInitialContents : Prop :=
  ∀ (p : Config.Params) (s : State), State.launch p = .next s → ∀ a, a < p.nvSize →
    ((∀ c ∈ p.nvInit, c.1 ≠ a) → Memory.read s.nv a = 0) ∧
    ∀ l r v, p.nvInit = l ++ (a, v) :: r → (∀ c ∈ r, c.1 ≠ a) → Memory.read s.nv a = v

/-- A well-formed launch meets the invariant, and so does `State.reset`, the launch of 95_test_vectors.md with the model's choice of
`NV_SIZE` 65536 and `CFG_BASE` 0 (log 2). -/
def Obligations.LaunchMeetsTheInvariant : Prop :=
  (∀ (p : Config.Params) (s : State), State.launch p = .next s → Inv s) ∧ Inv State.reset

/-- R10, R214: a launch is refused, with the configuration, exactly when it is not well formed: a zero threshold, a record of
0 or more than 16 bytes, a record past the store's end, or overlapping records. -/
def Obligations.IllFormedLaunchIsRefused : Prop :=
  ∀ (p : Config.Params), 1 ≤ p.nvSize → p.nvSize ≤ 65536 →
    (State.launch p = .fault (.badConfig p) ↔
      (p.deglitchT < 1 ∨ 65535 < p.deglitchT ∨ p.recN < 1 ∨ 16 < p.recN ∨
        p.nvSize < p.stateBase + p.recN ∨ p.nvSize < p.cfgBase + 6 ∨
        ∃ a, p.stateBase ≤ a ∧ a < p.stateBase + p.recN ∧ p.cfgBase ≤ a ∧ a < p.cfgBase + 6)) ∧
    ∀ r, State.launch p ≠ .refused r

/-- R229, R241, R242: power loss and power-on keep the store and lose everything else of the block: every field takes its value of
R46, both copies loaded from the store, under the same launch parameters, and the invariant holds. Power loss as an operation, and
that a write in progress leaves the store as it was, are the model's (log 13). -/
def Obligations.PowerCycleKeepsOnlyTheStore : Prop :=
  ∀ (s : State), Inv s →
    let t := s.powerCycle
    Inv t ∧ t.nv = s.nv ∧ t.params = s.params ∧
    t.tick = 0 ∧ t.btn = ⟨false, 0, false⟩ ∧ t.off = ⟨false, 0, false⟩ ∧
    t.ledMode = ⟨0b00, 0b00, 0b00⟩ ∧ t.duty = ⟨0, 0, 0⟩ ∧
    t.level = 0 ∧ t.dirUp = true ∧ t.sub = s.params.flashDivInit ∧ t.flashDiv = s.params.flashDivInit ∧
    t.polarity = s.params.polarity ∧
    t.desired.length = s.params.recN ∧ t.programmed = t.desired ∧
    (∀ i, i < s.params.recN → t.desired[i]? = some (Memory.read s.nv (s.params.stateBase + i))) ∧
    t.offset = 0 ∧ t.ie = false ∧ t.evmask = false ∧ t.nvBusy = false ∧ t.fault = none

/-! ### Whole-machine rules -/

/-- R45: every field has one writer. The debounce unit's fields change in a TICK only; the LED unit's in a PWM only; a mode, the
divisor, the desired copy and the hold in their own writes only; the NV unit's in a notification or a request only; the store in
a completion only. Every byte of the store reads as before, but for the one a completion writes. -/
def Obligations.EveryFieldHasOneWriter : Prop :=
  ∀ (i : Instr) (s t : State), exec i s = .next t →
    SameSession s t ∧
    (isTick i = false → SameDebounce s t) ∧
    (i ≠ .evPwm → SameLed s t) ∧
    ((∀ d, i ≠ .wrLedModeR d) → t.ledMode.r = s.ledMode.r) ∧
    ((∀ d, i ≠ .wrLedModeG d) → t.ledMode.g = s.ledMode.g) ∧
    ((∀ d, i ≠ .wrLedModeB d) → t.ledMode.b = s.ledMode.b) ∧
    ((∀ d, i ≠ .wrFlashDiv d) → t.flashDiv = s.flashDiv) ∧
    ((∀ j d, i ≠ .wrDesired j d) → t.desired = s.desired) ∧
    (isWrEvmask i = false → t.evmask = s.evmask) ∧
    (i ≠ .evNvnotify → t.programmed = s.programmed) ∧
    (i ≠ .evNvnotify → (∀ d, i ≠ .wrNvCtrl d) → SameNv s t) ∧
    (i ≠ .evNvnotify → i ≠ .evNvdone → SameStore s t) ∧
    (∀ a, i ≠ .evNvdone ∨ a ≠ s.nvPa.toNat → Memory.read t.nv a = Memory.read s.nv a) ∧
    (i.isRead = false → t.outbox = s.outbox)

/-- R219: two events enabled in one state reach the same state in either order; NVNOTIFY and NVDONE never are. -/
def Obligations.EnabledEventsCommute : Prop :=
  (∀ s : State, ¬ (s.enabled .nvNotify = true ∧ s.enabled .nvDone = true)) ∧
  ∀ (i j : Instr) (e e' : Event) (s u v : State),
    eventOf i = some e → eventOf j = some e' → e ≠ e' →
    exec i s = .next u → exec j s = .next v →
    ∃ t, exec j u = .next t ∧ exec i v = .next t

/-- R184, R185: nothing the block does depends on the store's contents or on what a write leaves there: from two states that
differ in those alone, every operation has the same outcome but for them. -/
def Obligations.BlockNeverReadsTheStore : Prop :=
  ∀ (i : Instr) (s : State) (nv : Memory) (r : Config.NvWriteResult) (n : Nat),
    let s' := { s with nv := nv, params := { s.params with nvWriteResult := r }, draws := n }
    (∀ t, exec i s = .next t →
      ∃ nv' n', exec i s' =
        .next { t with nv := nv', params := { t.params with nvWriteResult := r }, draws := n' }) ∧
    (∀ k, exec i s = .fault k → exec i s' = .fault k) ∧
    (∀ q, exec i s = .refused q → exec i s' = .refused q)

/-! ### Runs of the debounce unit -/

/-- R113: after `k` TICKs the counter has advanced by `k` modulo 2^32, and the host's duration `now - then` is that number. -/
def Obligations.TickCounterCountsTicks : Prop :=
  ∀ (pins : List (Bool × Bool)) (s : State), s.fault = none → s.evmask = false →
    ∃ t, runAll (ticks pins) s = .next t ∧
      t.tick.toNat = (s.tick.toNat + pins.length) % 2 ^ 32 ∧
      (pins.length < 2 ^ 32 → (duration t.tick s.tick).toNat = pins.length)

/-- R111, for either input: a run of samples that disagree with its stable value, with those already counted, leaves the stable value
until the `DEGLITCH_T`-th, which flips it and clears the counter, whatever the other input does. -/
def Obligations.StableValueFlipsAtThreshold : Prop :=
  ∀ (x : Input) (pins : List (Bool × Bool)) (s : State), Inv s → s.fault = none → s.evmask = false →
    (∀ p ∈ pins, sampleOf s p x ≠ (inputOf s x).stable) →
    ∃ t, runAll (ticks pins) s = .next t ∧
      ((inputOf s x).cnt.toNat + pins.length < s.params.deglitchT →
        (inputOf t x).stable = (inputOf s x).stable ∧
        (inputOf t x).cnt.toNat = (inputOf s x).cnt.toNat + pins.length) ∧
      ((inputOf s x).cnt.toNat + pins.length = s.params.deglitchT →
        (inputOf t x).stable = (!(inputOf s x).stable) ∧ (inputOf t x).cnt = 0)

/-- R111, R112, for either input: while every `DEGLITCH_T` consecutive samples hold one that agrees with its stable value, that value
never changes (from a clear counter), whatever the other input does. -/
def Obligations.UnsettledInputNeverFlips : Prop :=
  ∀ (x : Input) (pins : List (Bool × Bool)) (s : State), Inv s → s.fault = none → s.evmask = false →
    (inputOf s x).cnt = 0 →
    (∀ l, l <:+: pins → l.length = s.params.deglitchT → ∃ p ∈ l, sampleOf s p x = (inputOf s x).stable) →
    ∃ t, runAll (ticks pins) s = .next t ∧ (inputOf t x).stable = (inputOf s x).stable

/-- R216, R63, R202: while the hold is set, no run of operations that leaves the hold alone has a TICK, a PWM or an NVNOTIFY in it,
and nothing they write changes but by the operations that share the field: the cursor and the pending flag by a request, `nv_busy`
by the completion of the write in progress. -/
def Obligations.HoldFreezesTheUnits : Prop :=
  ∀ (is : List Instr) (s t : State), s.evmask = true → (∀ i ∈ is, isWrEvmask i = false) →
    runAll is s = .next t →
    t.evmask = true ∧ SameDebounce s t ∧ SameLed s t ∧ t.programmed = s.programmed ∧
    ((∀ i ∈ is, ∀ d, i ≠ .wrNvCtrl d) → t.offset = s.offset ∧ t.ie = s.ie) ∧
    t.nvPa = s.nvPa ∧ t.nvPd = s.nvPd ∧
    (s.nvBusy = false → t.nvBusy = false) ∧
    (.evNvdone ∉ is → t.nvBusy = s.nvBusy) ∧
    ∀ i ∈ is, i ≠ .evNvnotify ∧ i ≠ .evPwm ∧ isTick i = false

/-- R110: the critical-section read runs in every state and returns the counter's value, lane by lane, and ends the hold;
with any operations in between that are no reads and leave the hold alone, the result is the value the counter had throughout. -/
def Obligations.CriticalSectionReadReturnsCounter : Prop :=
  (∀ (s : State), s.fault = none →
    ∃ l h1 h2 h3, runAll Pseudo.readTickCs.expand s =
        .next { s with outbox := s.outbox ++ [l, h1, h2, h3], evmask := false } ∧
      tickOfLanes l h1 h2 h3 = s.tick) ∧
  ∀ (xs0 xs1 xs2 xs3 xs4 : List Instr) (s t : State),
    (∀ i ∈ xs0 ++ xs1 ++ xs2 ++ xs3 ++ xs4, i.isRead = false ∧ isWrEvmask i = false) →
    runAll (.wrEvmask 0x01 :: xs0 ++ .rdTick0 :: xs1 ++ .rdTick1 :: xs2 ++ .rdTick2 :: xs3 ++ .rdTick3 :: xs4 ++
      [.wrEvmask 0x00]) s = .next t →
    t.tick = s.tick ∧ t.evmask = false ∧
    ∃ l h1 h2 h3, t.outbox = s.outbox ++ [l, h1, h2, h3] ∧ tickOfLanes l h1 h2 h3 = s.tick

/-- R109, R246: one iteration of the double read, with any operations that are no reads in between and fewer than 256 TICKs among
them, either retries or returns the value the counter had throughout. With 256 TICKs it can return a value the counter had neither
at the start nor at the end. -/
def Obligations.DoubleReadIsNeverTorn : Prop :=
  (∀ (xs1 xs2 xs3 xs4 : List Instr) (s t : State),
    (∀ i ∈ xs1 ++ xs2 ++ xs3 ++ xs4, i.isRead = false) →
    (xs1 ++ xs2 ++ xs3 ++ xs4).countP isTick < 256 →
    runAll (.rdTick0 :: xs1 ++ .rdTick1 :: xs2 ++ .rdTick2 :: xs3 ++ .rdTick3 :: xs4 ++ [.rdTick0]) s = .next t →
    ∃ l1 h1 h2 h3 l2, t.outbox = s.outbox ++ [l1, h1, h2, h3, l2] ∧
      ∀ v, readTickResult l1 h1 h2 h3 l2 = some v →
        v = s.tick ∧ t.tick = s.tick ∧ (xs1 ++ xs2 ++ xs3 ++ xs4).countP isTick = 0) ∧
  ∃ (s t : State) (l1 h1 h2 h3 l2 : Byte) (v : BitVec 32),
    runAll (.rdTick0 :: .rdTick1 :: ticks (List.replicate 256 (false, false)) ++ [.rdTick2, .rdTick3, .rdTick0]) s = .next t ∧
    t.outbox = s.outbox ++ [l1, h1, h2, h3, l2] ∧ readTickResult l1 h1 h2 h3 l2 = some v ∧ v ≠ s.tick ∧ v ≠ t.tick

/-! ### Runs of the LED unit -/

/-- R132, R149: the waveform steps once every `flash_div` PWM events, every 256 where the divisor is 0 (the sub-tick then wraps to
255): just after a reload, the events before the last leave it, and the last steps and reloads. -/
def Obligations.WaveformStepsOncePerInterval : Prop :=
  ∀ (s : State), s.fault = none → s.evmask = false → WaveInv s → s.sub = s.flashDiv →
    (∀ n, n < interval s.flashDiv →
      ∃ t, runAll (pwms n) s = .next t ∧ t.level = s.level ∧ t.dirUp = s.dirUp) ∧
    (s.flashDiv.toNat = 0 → interval s.flashDiv = 256 ∧ ∃ t, exec .evPwm s = .next t ∧ t.sub.toNat = 255) ∧
    ∃ t, runAll (pwms (interval s.flashDiv)) s = .next t ∧ t.sub = s.flashDiv ∧
      (s.dirUp = true → t.level.toNat = s.level.toNat + 1) ∧
      (s.dirUp = false → t.level.toNat + 1 = s.level.toNat)

/-- R147: with a constant divisor `D`, from level 0 upwards just after a reload, the waveform rises by one every `D` PWM events to
255, turns, falls by one every `D` to 0 and turns: the period is `2 × 255 × D` events, `2 × 255 × 256` where `D` is 0. -/
def Obligations.WaveformPeriodIsExact : Prop :=
  ∀ (s : State), s.fault = none → s.evmask = false →
    s.level = 0 → s.dirUp = true → s.sub = s.flashDiv →
    (∀ k, k ≤ 255 → ∃ t, runAll (pwms (k * interval s.flashDiv)) s = .next t ∧
      t.level.toNat = k ∧ t.sub = s.flashDiv ∧ t.dirUp = decide (k < 255)) ∧
    (∀ k, k ≤ 255 → ∃ t, runAll (pwms ((255 + k) * interval s.flashDiv)) s = .next t ∧
      t.level.toNat = 255 - k ∧ t.sub = s.flashDiv ∧ t.dirUp = decide (k = 255)) ∧
    ∃ t, runAll (pwms (2 * 255 * interval s.flashDiv)) s = .next t ∧
      t = { s with duty := t.duty }

/-! ### Runs of the NV unit -/

/-- R183, R249: a reconciled prefix below the cursor stays one through every operation but a host write below the cursor, and the
notification that disables itself leaves the two copies equal. -/
def Obligations.DisableMeansReconciled : Prop :=
  ∀ (i : Instr) (s t : State), Inv s → ReconciledBelowCursor s → exec i s = .next t →
    (∀ j d, i = .wrDesired j d → s.offset.toNat ≤ j.toNat) →
    ReconciledBelowCursor t ∧ (s.ie = true → t.ie = false → t.programmed = t.desired)

/-- R181, R182, R257: after a request, with `k` differing bytes, `k` notifications each issue one physical write and the next one
disables the notification, with the programmed copy equal to the desired copy; where a completed write leaves the byte issued,
every byte written is in the store. -/
def Obligations.ReconciliationTakesOneWritePerDifference : Prop :=
  ∀ (s : State), Inv s → s.fault = none → s.ie = true → s.offset = 0 → s.nvBusy = false → s.evmask = false →
    (∀ k, k ≤ differing s → ∃ u, runAll (rounds k) s = .next u ∧ u.ie = true ∧ differing u + k = differing s) ∧
    ∃ t, runAll (rounds (differing s) ++ [.evNvnotify]) s = .next t ∧
      t.ie = false ∧ t.nvBusy = false ∧ t.offset.toNat = s.params.recN ∧
      t.desired = s.desired ∧ t.programmed = s.desired ∧
      (s.params.nvWriteResult = .exact → ∀ i, i < s.params.recN → Differs s i →
        Memory.read t.nv (s.params.stateBase + i) = recordByte s.desired i)
end

