-- ==== Sys2Proof/Laws/Decode.lean ====
section
/-! SUPPORT. The fields of the words the encoder lays out, the split of a word into its fields, and decoding of RD and WR words. -/

namespace Sys2Proof

theorem rdWord_fields (a : RegAddr) :
    wordKind (rdWord a) = 0b00 ∧ wordAddr (rdWord a) = a ∧ wordData (rdWord a) = 0 := by
  revert a; decide

theorem wrWord_fields (a : RegAddr) (d : Byte) :
    wordKind (wrWord a d) = 0b01 ∧ wordAddr (wrWord a d) = a ∧ wordData (wrWord a d) = d := by
  simp only [wordKind, wordAddr, wordData, wrWord]
  refine ⟨?_, ?_, ?_⟩ <;> ext i hi <;> simp <;> grind

/-- A RD or WR word is its three fields. -/
theorem word_eq_fields (w : Word) : w = wordKind w ++ wordAddr w ++ wordData w := by
  ext i hi
  simp only [wordKind, wordAddr, wordData]
  grind

/-- An EV word is its four fields. -/
theorem word_eq_event_fields (w : Word) :
    w = wordKind w ++ wordEvent w ++ wordEventReserved w ++ wordPins w := by
  ext i hi
  simp only [wordKind, wordEvent, wordEventReserved, wordPins]
  grind

theorem desiredAddr_fields (i : RecIndex) :
    (desiredAddr i).extractLsb' 4 2 = 0b10#2 ∧ (desiredAddr i).extractLsb' 0 4 = i := by
  revert i; decide

theorem programmedAddr_fields (i : RecIndex) :
    (programmedAddr i).extractLsb' 4 2 = 0b11#2 ∧ (programmedAddr i).extractLsb' 0 4 = i := by
  revert i; decide

/-- Decoding a RD word: the register's read, or UnmappedAccess. -/
theorem decode_rdWord (recN : Nat) (a : RegAddr) :
    decode recN (rdWord a) =
      match readAt recN a with
      | none => .error (.unmappedAccess (rdWord a) a)
      | some r => .ok r := by
  obtain ⟨k, ha, d⟩ := rdWord_fields a
  simp only [decode, k, ha, d]
  rfl

/-- Decoding a WR word: the register's write, or UnmappedAccess, or ReadOnlyWrite. -/
theorem decode_wrWord (recN : Nat) (a : RegAddr) (d : Byte) :
    decode recN (wrWord a d) =
      match readAt recN a with
      | none => .error (.unmappedAccess (wrWord a d) a)
      | some _ =>
        match writeAt recN a d with
        | none => .error (.readOnlyWrite (wrWord a d) a)
        | some r => .ok r := by
  obtain ⟨k, ha, hd⟩ := wrWord_fields a d
  simp only [decode, k, ha, hd]
  rfl

end Sys2Proof
end

