-- ==== Sys2Proof/Laws/Memory.lean ====
section
/-! SUPPORT. The store: a read after a write, and the canonical form and the size, kept by every operation on it. -/

namespace Sys2Proof.Machine

@[simp] theorem Memory.read_nil (a : Nat) : Memory.read [] a = Memory.unlisted := rfl

theorem Memory.read_cons (k : Nat) (v : Byte) (m : Memory) (a : Nat) :
    Memory.read ((k, v) :: m) a = if k = a then v else Memory.read m a := rfl

/-- An address below every listed one reads as unlisted. -/
theorem Memory.read_of_forall_lt (m : Memory) (a : Nat) (h : ∀ c ∈ m, a < c.1) :
    Memory.read m a = Memory.unlisted := by
  induction m with
  | nil => rfl
  | cons c m ih =>
    have hc := h c (by simp)
    rw [Memory.read_cons c.1 c.2, if_neg (by omega)]
    exact ih (fun d hd => h d (by simp [hd]))

theorem Memory.read_put (m : Memory) (a : Nat) (v : Byte) (b : Nat) (h : ∀ c ∈ m, a < c.1) :
    Memory.read (Memory.put m a v) b = if b = a then v else Memory.read m b := by
  unfold Memory.put
  by_cases hv : v = Memory.unlisted
  · rw [if_pos hv]
    split
    · next hb => rw [hb, Memory.read_of_forall_lt m a h, hv]
    · rfl
  · rw [if_neg hv, Memory.read_cons]
    by_cases hb : b = a
    · simp [hb]
    · rw [if_neg (fun e => hb e.symm), if_neg hb]

/-- A read after a write: the byte written at its address, every other byte as before. -/
theorem Memory.read_write (m : Memory) (a : Nat) (v : Byte) (b : Nat) (h : Memory.wf m) :
    Memory.read (Memory.write m a v) b = if b = a then v else Memory.read m b := by
  induction m with
  | nil => exact Memory.read_put [] a v b (by simp)
  | cons c m ih =>
    obtain ⟨k, w⟩ := c
    obtain ⟨hp, hn⟩ := h
    rw [List.pairwise_cons] at hp
    have ih := ih ⟨hp.2, fun d hd => hn d (by simp [hd])⟩
    simp only [Memory.write]
    split
    · next hlt =>
      refine Memory.read_put _ a v b (fun d hd => ?_)
      rcases List.mem_cons.1 hd with rfl | hd
      · exact hlt
      · exact Nat.lt_trans hlt (hp.1 d hd)
    · split
      · next hak =>
        subst hak
        rw [Memory.read_put m a v b (fun d hd => hp.1 d hd), Memory.read_cons]
        by_cases hb : b = a
        · simp [hb]
        · rw [if_neg hb, if_neg hb, if_neg (fun e => hb e.symm)]
      · next hak =>
        rw [Memory.read_cons, Memory.read_cons, ih]
        by_cases hb : b = a
        · rw [if_pos hb, if_pos hb, if_neg (fun e => hak (by omega))]
        · rw [if_neg hb, if_neg hb]

/-- A byte elsewhere reads as before a write, in any form of the list. -/
theorem Memory.read_write_other (m : Memory) (a : Nat) (v : Byte) (b : Nat) (h : b ≠ a) :
    Memory.read (Memory.write m a v) b = Memory.read m b := by
  have put : ∀ m' : Memory, Memory.read (Memory.put m' a v) b = Memory.read m' b := by
    intro m'
    unfold Memory.put
    split
    · rfl
    · rw [Memory.read_cons, if_neg (fun e => h e.symm)]
  induction m with
  | nil => exact put []
  | cons c m ih =>
    obtain ⟨k, w⟩ := c
    simp only [Memory.write]
    split
    · exact put _
    · split
      · next hak => rw [put, Memory.read_cons, if_neg (fun e => h (by omega))]
      · rw [Memory.read_cons, Memory.read_cons, ih]

theorem Memory.mem_put (m : Memory) (a : Nat) (v : Byte) (c : Host.Cell) (h : c ∈ Memory.put m a v) :
    c ∈ m ∨ (c = (a, v) ∧ v ≠ Memory.unlisted) := by
  unfold Memory.put at h
  split at h
  · exact .inl h
  · next hv =>
    rcases List.mem_cons.1 h with rfl | h
    · exact .inr ⟨rfl, hv⟩
    · exact .inl h

/-- The cells after a write are cells from before or the one written. -/
theorem Memory.mem_write (m : Memory) (a : Nat) (v : Byte) (c : Host.Cell) (h : c ∈ Memory.write m a v) :
    c ∈ m ∨ (c = (a, v) ∧ v ≠ Memory.unlisted) := by
  induction m with
  | nil => exact Memory.mem_put [] a v c h
  | cons d m ih =>
    obtain ⟨k, w⟩ := d
    simp only [Memory.write] at h
    split at h
    · exact Memory.mem_put _ a v c h
    · split at h
      · rcases Memory.mem_put m a v c h with h | h
        · exact .inl (List.mem_cons_of_mem _ h)
        · exact .inr h
      · rcases List.mem_cons.1 h with rfl | h
        · exact .inl (by simp)
        · exact (ih h).imp (List.mem_cons_of_mem _) id

theorem Memory.put_wf (m : Memory) (a : Nat) (v : Byte) (hm : Memory.wf m) (h : ∀ c ∈ m, a < c.1) :
    Memory.wf (Memory.put m a v) := by
  unfold Memory.put
  split
  · exact hm
  · next hv =>
    refine ⟨List.pairwise_cons.2 ⟨h, hm.1⟩, fun c hc => ?_⟩
    rcases List.mem_cons.1 hc with rfl | hc
    · exact hv
    · exact hm.2 c hc

/-- A write keeps the canonical form. -/
theorem Memory.write_wf (m : Memory) (a : Nat) (v : Byte) (h : Memory.wf m) : Memory.wf (Memory.write m a v) := by
  induction m with
  | nil => exact Memory.put_wf [] a v ⟨List.Pairwise.nil, by simp⟩ (by simp)
  | cons c m ih =>
    obtain ⟨k, w⟩ := c
    obtain ⟨hp, hn⟩ := h
    have hp' := List.pairwise_cons.1 hp
    have hm : Memory.wf m := ⟨hp'.2, fun d hd => hn d (by simp [hd])⟩
    simp only [Memory.write]
    split
    · next hlt =>
      refine Memory.put_wf _ a v ⟨hp, hn⟩ (fun d hd => ?_)
      rcases List.mem_cons.1 hd with rfl | hd
      · exact hlt
      · exact Nat.lt_trans hlt (hp'.1 d hd)
    · split
      · next hak =>
        subst hak
        exact Memory.put_wf m a v hm (fun d hd => hp'.1 d hd)
      · refine ⟨List.pairwise_cons.2 ⟨fun d hd => ?_, (ih hm).1⟩, fun d hd => ?_⟩
        · rcases Memory.mem_write m a v d hd with hd | ⟨rfl, -⟩
          · exact hp'.1 d hd
          · show k < a
            omega
        · rcases List.mem_cons.1 hd with rfl | hd
          · exact hn _ (by simp)
          · exact (ih hm).2 d hd

/-- A write within the store keeps every listed address within it. -/
theorem Memory.write_within (size : Nat) (m : Memory) (a : Nat) (v : Byte) (h : Memory.within size m)
    (ha : a < size) : Memory.within size (Memory.write m a v) := by
  intro c hc
  rcases Memory.mem_write m a v c hc with hc | ⟨rfl, -⟩
  · exact h c hc
  · exact ha

/-- The store made of cells is canonical and within its size. -/
theorem Memory.ofCells_wf (size : Nat) (cells : List Host.Cell) :
    Memory.wf (Memory.ofCells size cells) ∧ Memory.within size (Memory.ofCells size cells) := by
  have fold : ∀ (cs : List Host.Cell) (m : Memory), Memory.wf m → Memory.within size m →
      Memory.wf (cs.foldl (fun m c => if c.1 < size then Memory.write m c.1 c.2 else m) m) ∧
      Memory.within size (cs.foldl (fun m c => if c.1 < size then Memory.write m c.1 c.2 else m) m) := by
    intro cs
    induction cs with
    | nil => exact fun m h h' => ⟨h, h'⟩
    | cons c cs ih =>
      intro m h h'
      simp only [List.foldl_cons]
      split
      · next hc => exact ih _ (Memory.write_wf m c.1 c.2 h) (Memory.write_within size m c.1 c.2 h' hc)
      · exact ih m h h'
  exact fold cells [] ⟨List.Pairwise.nil, by simp⟩ (fun c hc => by simp at hc)

theorem loadRecord_length (p : Config.Params) (nv : Memory) : (loadRecord p nv).length = p.recN := by
  simp [loadRecord]

/-- Byte `i` of the loaded record is the store's byte at `STATE_BASE + i`. -/
theorem loadRecord_getElem? (p : Config.Params) (nv : Memory) (i : Nat) (h : i < p.recN) :
    (loadRecord p nv)[i]? = some (Memory.read nv (p.stateBase + i)) := by
  simp [loadRecord, h]

end Sys2Proof.Machine
end

