-- ==== Sys2Proof/Laws/State.lean ====
section
/-! SUPPORT. What each named update of the state does to each field, true by definition: later proofs unfold no update. -/

namespace Sys2Proof.Machine

variable (s : State)

/-! ### reply -/

@[simp] theorem State.reply_tick (v : Byte) : (s.reply v).tick = s.tick := rfl
@[simp] theorem State.reply_btn (v : Byte) : (s.reply v).btn = s.btn := rfl
@[simp] theorem State.reply_off (v : Byte) : (s.reply v).off = s.off := rfl
@[simp] theorem State.reply_ledMode (v : Byte) : (s.reply v).ledMode = s.ledMode := rfl
@[simp] theorem State.reply_duty (v : Byte) : (s.reply v).duty = s.duty := rfl
@[simp] theorem State.reply_level (v : Byte) : (s.reply v).level = s.level := rfl
@[simp] theorem State.reply_dirUp (v : Byte) : (s.reply v).dirUp = s.dirUp := rfl
@[simp] theorem State.reply_sub (v : Byte) : (s.reply v).sub = s.sub := rfl
@[simp] theorem State.reply_flashDiv (v : Byte) : (s.reply v).flashDiv = s.flashDiv := rfl
@[simp] theorem State.reply_polarity (v : Byte) : (s.reply v).polarity = s.polarity := rfl
@[simp] theorem State.reply_desired (v : Byte) : (s.reply v).desired = s.desired := rfl
@[simp] theorem State.reply_programmed (v : Byte) : (s.reply v).programmed = s.programmed := rfl
@[simp] theorem State.reply_offset (v : Byte) : (s.reply v).offset = s.offset := rfl
@[simp] theorem State.reply_ie (v : Byte) : (s.reply v).ie = s.ie := rfl
@[simp] theorem State.reply_evmask (v : Byte) : (s.reply v).evmask = s.evmask := rfl
@[simp] theorem State.reply_nv (v : Byte) : (s.reply v).nv = s.nv := rfl
@[simp] theorem State.reply_nvBusy (v : Byte) : (s.reply v).nvBusy = s.nvBusy := rfl
@[simp] theorem State.reply_nvPa (v : Byte) : (s.reply v).nvPa = s.nvPa := rfl
@[simp] theorem State.reply_nvPd (v : Byte) : (s.reply v).nvPd = s.nvPd := rfl
@[simp] theorem State.reply_fault (v : Byte) : (s.reply v).fault = s.fault := rfl
@[simp] theorem State.reply_params (v : Byte) : (s.reply v).params = s.params := rfl
@[simp] theorem State.reply_inbox (v : Byte) : (s.reply v).inbox = s.inbox := rfl
@[simp] theorem State.reply_outbox (v : Byte) : (s.reply v).outbox = s.outbox ++ [v] := rfl
@[simp] theorem State.reply_draws (v : Byte) : (s.reply v).draws = s.draws := rfl

/-! ### raise -/

@[simp] theorem State.raise_tick (k : Fault) : (s.raise k).tick = s.tick := rfl
@[simp] theorem State.raise_btn (k : Fault) : (s.raise k).btn = s.btn := rfl
@[simp] theorem State.raise_off (k : Fault) : (s.raise k).off = s.off := rfl
@[simp] theorem State.raise_ledMode (k : Fault) : (s.raise k).ledMode = s.ledMode := rfl
@[simp] theorem State.raise_duty (k : Fault) : (s.raise k).duty = s.duty := rfl
@[simp] theorem State.raise_level (k : Fault) : (s.raise k).level = s.level := rfl
@[simp] theorem State.raise_dirUp (k : Fault) : (s.raise k).dirUp = s.dirUp := rfl
@[simp] theorem State.raise_sub (k : Fault) : (s.raise k).sub = s.sub := rfl
@[simp] theorem State.raise_flashDiv (k : Fault) : (s.raise k).flashDiv = s.flashDiv := rfl
@[simp] theorem State.raise_polarity (k : Fault) : (s.raise k).polarity = s.polarity := rfl
@[simp] theorem State.raise_desired (k : Fault) : (s.raise k).desired = s.desired := rfl
@[simp] theorem State.raise_programmed (k : Fault) : (s.raise k).programmed = s.programmed := rfl
@[simp] theorem State.raise_offset (k : Fault) : (s.raise k).offset = s.offset := rfl
@[simp] theorem State.raise_ie (k : Fault) : (s.raise k).ie = s.ie := rfl
@[simp] theorem State.raise_evmask (k : Fault) : (s.raise k).evmask = s.evmask := rfl
@[simp] theorem State.raise_nv (k : Fault) : (s.raise k).nv = s.nv := rfl
@[simp] theorem State.raise_nvBusy (k : Fault) : (s.raise k).nvBusy = s.nvBusy := rfl
@[simp] theorem State.raise_nvPa (k : Fault) : (s.raise k).nvPa = s.nvPa := rfl
@[simp] theorem State.raise_nvPd (k : Fault) : (s.raise k).nvPd = s.nvPd := rfl
@[simp] theorem State.raise_fault (k : Fault) : (s.raise k).fault = some k := rfl
@[simp] theorem State.raise_params (k : Fault) : (s.raise k).params = s.params := rfl
@[simp] theorem State.raise_inbox (k : Fault) : (s.raise k).inbox = s.inbox := rfl
@[simp] theorem State.raise_outbox (k : Fault) : (s.raise k).outbox = s.outbox := rfl
@[simp] theorem State.raise_draws (k : Fault) : (s.raise k).draws = s.draws := rfl

/-! ### setDebounce -/

@[simp] theorem State.setDebounce_tick (c : BitVec 32) (x y : Deb) : (s.setDebounce c x y).tick = c := rfl
@[simp] theorem State.setDebounce_btn (c : BitVec 32) (x y : Deb) : (s.setDebounce c x y).btn = x := rfl
@[simp] theorem State.setDebounce_off (c : BitVec 32) (x y : Deb) : (s.setDebounce c x y).off = y := rfl
@[simp] theorem State.setDebounce_ledMode (c : BitVec 32) (x y : Deb) : (s.setDebounce c x y).ledMode = s.ledMode := rfl
@[simp] theorem State.setDebounce_duty (c : BitVec 32) (x y : Deb) : (s.setDebounce c x y).duty = s.duty := rfl
@[simp] theorem State.setDebounce_level (c : BitVec 32) (x y : Deb) : (s.setDebounce c x y).level = s.level := rfl
@[simp] theorem State.setDebounce_dirUp (c : BitVec 32) (x y : Deb) : (s.setDebounce c x y).dirUp = s.dirUp := rfl
@[simp] theorem State.setDebounce_sub (c : BitVec 32) (x y : Deb) : (s.setDebounce c x y).sub = s.sub := rfl
@[simp] theorem State.setDebounce_flashDiv (c : BitVec 32) (x y : Deb) : (s.setDebounce c x y).flashDiv = s.flashDiv := rfl
@[simp] theorem State.setDebounce_polarity (c : BitVec 32) (x y : Deb) : (s.setDebounce c x y).polarity = s.polarity := rfl
@[simp] theorem State.setDebounce_desired (c : BitVec 32) (x y : Deb) : (s.setDebounce c x y).desired = s.desired := rfl
@[simp] theorem State.setDebounce_programmed (c : BitVec 32) (x y : Deb) : (s.setDebounce c x y).programmed = s.programmed := rfl
@[simp] theorem State.setDebounce_offset (c : BitVec 32) (x y : Deb) : (s.setDebounce c x y).offset = s.offset := rfl
@[simp] theorem State.setDebounce_ie (c : BitVec 32) (x y : Deb) : (s.setDebounce c x y).ie = s.ie := rfl
@[simp] theorem State.setDebounce_evmask (c : BitVec 32) (x y : Deb) : (s.setDebounce c x y).evmask = s.evmask := rfl
@[simp] theorem State.setDebounce_nv (c : BitVec 32) (x y : Deb) : (s.setDebounce c x y).nv = s.nv := rfl
@[simp] theorem State.setDebounce_nvBusy (c : BitVec 32) (x y : Deb) : (s.setDebounce c x y).nvBusy = s.nvBusy := rfl
@[simp] theorem State.setDebounce_nvPa (c : BitVec 32) (x y : Deb) : (s.setDebounce c x y).nvPa = s.nvPa := rfl
@[simp] theorem State.setDebounce_nvPd (c : BitVec 32) (x y : Deb) : (s.setDebounce c x y).nvPd = s.nvPd := rfl
@[simp] theorem State.setDebounce_fault (c : BitVec 32) (x y : Deb) : (s.setDebounce c x y).fault = s.fault := rfl
@[simp] theorem State.setDebounce_params (c : BitVec 32) (x y : Deb) : (s.setDebounce c x y).params = s.params := rfl
@[simp] theorem State.setDebounce_inbox (c : BitVec 32) (x y : Deb) : (s.setDebounce c x y).inbox = s.inbox := rfl
@[simp] theorem State.setDebounce_outbox (c : BitVec 32) (x y : Deb) : (s.setDebounce c x y).outbox = s.outbox := rfl
@[simp] theorem State.setDebounce_draws (c : BitVec 32) (x y : Deb) : (s.setDebounce c x y).draws = s.draws := rfl

/-! ### setDuty -/

@[simp] theorem State.setDuty_tick (d : Rgb Byte) : (s.setDuty d).tick = s.tick := rfl
@[simp] theorem State.setDuty_btn (d : Rgb Byte) : (s.setDuty d).btn = s.btn := rfl
@[simp] theorem State.setDuty_off (d : Rgb Byte) : (s.setDuty d).off = s.off := rfl
@[simp] theorem State.setDuty_ledMode (d : Rgb Byte) : (s.setDuty d).ledMode = s.ledMode := rfl
@[simp] theorem State.setDuty_duty (d : Rgb Byte) : (s.setDuty d).duty = d := rfl
@[simp] theorem State.setDuty_level (d : Rgb Byte) : (s.setDuty d).level = s.level := rfl
@[simp] theorem State.setDuty_dirUp (d : Rgb Byte) : (s.setDuty d).dirUp = s.dirUp := rfl
@[simp] theorem State.setDuty_sub (d : Rgb Byte) : (s.setDuty d).sub = s.sub := rfl
@[simp] theorem State.setDuty_flashDiv (d : Rgb Byte) : (s.setDuty d).flashDiv = s.flashDiv := rfl
@[simp] theorem State.setDuty_polarity (d : Rgb Byte) : (s.setDuty d).polarity = s.polarity := rfl
@[simp] theorem State.setDuty_desired (d : Rgb Byte) : (s.setDuty d).desired = s.desired := rfl
@[simp] theorem State.setDuty_programmed (d : Rgb Byte) : (s.setDuty d).programmed = s.programmed := rfl
@[simp] theorem State.setDuty_offset (d : Rgb Byte) : (s.setDuty d).offset = s.offset := rfl
@[simp] theorem State.setDuty_ie (d : Rgb Byte) : (s.setDuty d).ie = s.ie := rfl
@[simp] theorem State.setDuty_evmask (d : Rgb Byte) : (s.setDuty d).evmask = s.evmask := rfl
@[simp] theorem State.setDuty_nv (d : Rgb Byte) : (s.setDuty d).nv = s.nv := rfl
@[simp] theorem State.setDuty_nvBusy (d : Rgb Byte) : (s.setDuty d).nvBusy = s.nvBusy := rfl
@[simp] theorem State.setDuty_nvPa (d : Rgb Byte) : (s.setDuty d).nvPa = s.nvPa := rfl
@[simp] theorem State.setDuty_nvPd (d : Rgb Byte) : (s.setDuty d).nvPd = s.nvPd := rfl
@[simp] theorem State.setDuty_fault (d : Rgb Byte) : (s.setDuty d).fault = s.fault := rfl
@[simp] theorem State.setDuty_params (d : Rgb Byte) : (s.setDuty d).params = s.params := rfl
@[simp] theorem State.setDuty_inbox (d : Rgb Byte) : (s.setDuty d).inbox = s.inbox := rfl
@[simp] theorem State.setDuty_outbox (d : Rgb Byte) : (s.setDuty d).outbox = s.outbox := rfl
@[simp] theorem State.setDuty_draws (d : Rgb Byte) : (s.setDuty d).draws = s.draws := rfl

/-! ### setWave -/

@[simp] theorem State.setWave_tick (l : Byte) (u : Bool) (b : Byte) : (s.setWave l u b).tick = s.tick := rfl
@[simp] theorem State.setWave_btn (l : Byte) (u : Bool) (b : Byte) : (s.setWave l u b).btn = s.btn := rfl
@[simp] theorem State.setWave_off (l : Byte) (u : Bool) (b : Byte) : (s.setWave l u b).off = s.off := rfl
@[simp] theorem State.setWave_ledMode (l : Byte) (u : Bool) (b : Byte) : (s.setWave l u b).ledMode = s.ledMode := rfl
@[simp] theorem State.setWave_duty (l : Byte) (u : Bool) (b : Byte) : (s.setWave l u b).duty = s.duty := rfl
@[simp] theorem State.setWave_level (l : Byte) (u : Bool) (b : Byte) : (s.setWave l u b).level = l := rfl
@[simp] theorem State.setWave_dirUp (l : Byte) (u : Bool) (b : Byte) : (s.setWave l u b).dirUp = u := rfl
@[simp] theorem State.setWave_sub (l : Byte) (u : Bool) (b : Byte) : (s.setWave l u b).sub = b := rfl
@[simp] theorem State.setWave_flashDiv (l : Byte) (u : Bool) (b : Byte) : (s.setWave l u b).flashDiv = s.flashDiv := rfl
@[simp] theorem State.setWave_polarity (l : Byte) (u : Bool) (b : Byte) : (s.setWave l u b).polarity = s.polarity := rfl
@[simp] theorem State.setWave_desired (l : Byte) (u : Bool) (b : Byte) : (s.setWave l u b).desired = s.desired := rfl
@[simp] theorem State.setWave_programmed (l : Byte) (u : Bool) (b : Byte) : (s.setWave l u b).programmed = s.programmed := rfl
@[simp] theorem State.setWave_offset (l : Byte) (u : Bool) (b : Byte) : (s.setWave l u b).offset = s.offset := rfl
@[simp] theorem State.setWave_ie (l : Byte) (u : Bool) (b : Byte) : (s.setWave l u b).ie = s.ie := rfl
@[simp] theorem State.setWave_evmask (l : Byte) (u : Bool) (b : Byte) : (s.setWave l u b).evmask = s.evmask := rfl
@[simp] theorem State.setWave_nv (l : Byte) (u : Bool) (b : Byte) : (s.setWave l u b).nv = s.nv := rfl
@[simp] theorem State.setWave_nvBusy (l : Byte) (u : Bool) (b : Byte) : (s.setWave l u b).nvBusy = s.nvBusy := rfl
@[simp] theorem State.setWave_nvPa (l : Byte) (u : Bool) (b : Byte) : (s.setWave l u b).nvPa = s.nvPa := rfl
@[simp] theorem State.setWave_nvPd (l : Byte) (u : Bool) (b : Byte) : (s.setWave l u b).nvPd = s.nvPd := rfl
@[simp] theorem State.setWave_fault (l : Byte) (u : Bool) (b : Byte) : (s.setWave l u b).fault = s.fault := rfl
@[simp] theorem State.setWave_params (l : Byte) (u : Bool) (b : Byte) : (s.setWave l u b).params = s.params := rfl
@[simp] theorem State.setWave_inbox (l : Byte) (u : Bool) (b : Byte) : (s.setWave l u b).inbox = s.inbox := rfl
@[simp] theorem State.setWave_outbox (l : Byte) (u : Bool) (b : Byte) : (s.setWave l u b).outbox = s.outbox := rfl
@[simp] theorem State.setWave_draws (l : Byte) (u : Bool) (b : Byte) : (s.setWave l u b).draws = s.draws := rfl

/-! ### setLedMode -/

@[simp] theorem State.setLedMode_tick (c : Channel) (m : LedMode) : (s.setLedMode c m).tick = s.tick := rfl
@[simp] theorem State.setLedMode_btn (c : Channel) (m : LedMode) : (s.setLedMode c m).btn = s.btn := rfl
@[simp] theorem State.setLedMode_off (c : Channel) (m : LedMode) : (s.setLedMode c m).off = s.off := rfl
@[simp] theorem State.setLedMode_ledMode (c : Channel) (m : LedMode) : (s.setLedMode c m).ledMode = s.ledMode.set c m := rfl
@[simp] theorem State.setLedMode_duty (c : Channel) (m : LedMode) : (s.setLedMode c m).duty = s.duty := rfl
@[simp] theorem State.setLedMode_level (c : Channel) (m : LedMode) : (s.setLedMode c m).level = s.level := rfl
@[simp] theorem State.setLedMode_dirUp (c : Channel) (m : LedMode) : (s.setLedMode c m).dirUp = s.dirUp := rfl
@[simp] theorem State.setLedMode_sub (c : Channel) (m : LedMode) : (s.setLedMode c m).sub = s.sub := rfl
@[simp] theorem State.setLedMode_flashDiv (c : Channel) (m : LedMode) : (s.setLedMode c m).flashDiv = s.flashDiv := rfl
@[simp] theorem State.setLedMode_polarity (c : Channel) (m : LedMode) : (s.setLedMode c m).polarity = s.polarity := rfl
@[simp] theorem State.setLedMode_desired (c : Channel) (m : LedMode) : (s.setLedMode c m).desired = s.desired := rfl
@[simp] theorem State.setLedMode_programmed (c : Channel) (m : LedMode) : (s.setLedMode c m).programmed = s.programmed := rfl
@[simp] theorem State.setLedMode_offset (c : Channel) (m : LedMode) : (s.setLedMode c m).offset = s.offset := rfl
@[simp] theorem State.setLedMode_ie (c : Channel) (m : LedMode) : (s.setLedMode c m).ie = s.ie := rfl
@[simp] theorem State.setLedMode_evmask (c : Channel) (m : LedMode) : (s.setLedMode c m).evmask = s.evmask := rfl
@[simp] theorem State.setLedMode_nv (c : Channel) (m : LedMode) : (s.setLedMode c m).nv = s.nv := rfl
@[simp] theorem State.setLedMode_nvBusy (c : Channel) (m : LedMode) : (s.setLedMode c m).nvBusy = s.nvBusy := rfl
@[simp] theorem State.setLedMode_nvPa (c : Channel) (m : LedMode) : (s.setLedMode c m).nvPa = s.nvPa := rfl
@[simp] theorem State.setLedMode_nvPd (c : Channel) (m : LedMode) : (s.setLedMode c m).nvPd = s.nvPd := rfl
@[simp] theorem State.setLedMode_fault (c : Channel) (m : LedMode) : (s.setLedMode c m).fault = s.fault := rfl
@[simp] theorem State.setLedMode_params (c : Channel) (m : LedMode) : (s.setLedMode c m).params = s.params := rfl
@[simp] theorem State.setLedMode_inbox (c : Channel) (m : LedMode) : (s.setLedMode c m).inbox = s.inbox := rfl
@[simp] theorem State.setLedMode_outbox (c : Channel) (m : LedMode) : (s.setLedMode c m).outbox = s.outbox := rfl
@[simp] theorem State.setLedMode_draws (c : Channel) (m : LedMode) : (s.setLedMode c m).draws = s.draws := rfl

/-! ### setFlashDiv -/

@[simp] theorem State.setFlashDiv_tick (d : Byte) : (s.setFlashDiv d).tick = s.tick := rfl
@[simp] theorem State.setFlashDiv_btn (d : Byte) : (s.setFlashDiv d).btn = s.btn := rfl
@[simp] theorem State.setFlashDiv_off (d : Byte) : (s.setFlashDiv d).off = s.off := rfl
@[simp] theorem State.setFlashDiv_ledMode (d : Byte) : (s.setFlashDiv d).ledMode = s.ledMode := rfl
@[simp] theorem State.setFlashDiv_duty (d : Byte) : (s.setFlashDiv d).duty = s.duty := rfl
@[simp] theorem State.setFlashDiv_level (d : Byte) : (s.setFlashDiv d).level = s.level := rfl
@[simp] theorem State.setFlashDiv_dirUp (d : Byte) : (s.setFlashDiv d).dirUp = s.dirUp := rfl
@[simp] theorem State.setFlashDiv_sub (d : Byte) : (s.setFlashDiv d).sub = s.sub := rfl
@[simp] theorem State.setFlashDiv_flashDiv (d : Byte) : (s.setFlashDiv d).flashDiv = d := rfl
@[simp] theorem State.setFlashDiv_polarity (d : Byte) : (s.setFlashDiv d).polarity = s.polarity := rfl
@[simp] theorem State.setFlashDiv_desired (d : Byte) : (s.setFlashDiv d).desired = s.desired := rfl
@[simp] theorem State.setFlashDiv_programmed (d : Byte) : (s.setFlashDiv d).programmed = s.programmed := rfl
@[simp] theorem State.setFlashDiv_offset (d : Byte) : (s.setFlashDiv d).offset = s.offset := rfl
@[simp] theorem State.setFlashDiv_ie (d : Byte) : (s.setFlashDiv d).ie = s.ie := rfl
@[simp] theorem State.setFlashDiv_evmask (d : Byte) : (s.setFlashDiv d).evmask = s.evmask := rfl
@[simp] theorem State.setFlashDiv_nv (d : Byte) : (s.setFlashDiv d).nv = s.nv := rfl
@[simp] theorem State.setFlashDiv_nvBusy (d : Byte) : (s.setFlashDiv d).nvBusy = s.nvBusy := rfl
@[simp] theorem State.setFlashDiv_nvPa (d : Byte) : (s.setFlashDiv d).nvPa = s.nvPa := rfl
@[simp] theorem State.setFlashDiv_nvPd (d : Byte) : (s.setFlashDiv d).nvPd = s.nvPd := rfl
@[simp] theorem State.setFlashDiv_fault (d : Byte) : (s.setFlashDiv d).fault = s.fault := rfl
@[simp] theorem State.setFlashDiv_params (d : Byte) : (s.setFlashDiv d).params = s.params := rfl
@[simp] theorem State.setFlashDiv_inbox (d : Byte) : (s.setFlashDiv d).inbox = s.inbox := rfl
@[simp] theorem State.setFlashDiv_outbox (d : Byte) : (s.setFlashDiv d).outbox = s.outbox := rfl
@[simp] theorem State.setFlashDiv_draws (d : Byte) : (s.setFlashDiv d).draws = s.draws := rfl

/-! ### setEvmask -/

@[simp] theorem State.setEvmask_tick (v : Bool) : (s.setEvmask v).tick = s.tick := rfl
@[simp] theorem State.setEvmask_btn (v : Bool) : (s.setEvmask v).btn = s.btn := rfl
@[simp] theorem State.setEvmask_off (v : Bool) : (s.setEvmask v).off = s.off := rfl
@[simp] theorem State.setEvmask_ledMode (v : Bool) : (s.setEvmask v).ledMode = s.ledMode := rfl
@[simp] theorem State.setEvmask_duty (v : Bool) : (s.setEvmask v).duty = s.duty := rfl
@[simp] theorem State.setEvmask_level (v : Bool) : (s.setEvmask v).level = s.level := rfl
@[simp] theorem State.setEvmask_dirUp (v : Bool) : (s.setEvmask v).dirUp = s.dirUp := rfl
@[simp] theorem State.setEvmask_sub (v : Bool) : (s.setEvmask v).sub = s.sub := rfl
@[simp] theorem State.setEvmask_flashDiv (v : Bool) : (s.setEvmask v).flashDiv = s.flashDiv := rfl
@[simp] theorem State.setEvmask_polarity (v : Bool) : (s.setEvmask v).polarity = s.polarity := rfl
@[simp] theorem State.setEvmask_desired (v : Bool) : (s.setEvmask v).desired = s.desired := rfl
@[simp] theorem State.setEvmask_programmed (v : Bool) : (s.setEvmask v).programmed = s.programmed := rfl
@[simp] theorem State.setEvmask_offset (v : Bool) : (s.setEvmask v).offset = s.offset := rfl
@[simp] theorem State.setEvmask_ie (v : Bool) : (s.setEvmask v).ie = s.ie := rfl
@[simp] theorem State.setEvmask_evmask (v : Bool) : (s.setEvmask v).evmask = v := rfl
@[simp] theorem State.setEvmask_nv (v : Bool) : (s.setEvmask v).nv = s.nv := rfl
@[simp] theorem State.setEvmask_nvBusy (v : Bool) : (s.setEvmask v).nvBusy = s.nvBusy := rfl
@[simp] theorem State.setEvmask_nvPa (v : Bool) : (s.setEvmask v).nvPa = s.nvPa := rfl
@[simp] theorem State.setEvmask_nvPd (v : Bool) : (s.setEvmask v).nvPd = s.nvPd := rfl
@[simp] theorem State.setEvmask_fault (v : Bool) : (s.setEvmask v).fault = s.fault := rfl
@[simp] theorem State.setEvmask_params (v : Bool) : (s.setEvmask v).params = s.params := rfl
@[simp] theorem State.setEvmask_inbox (v : Bool) : (s.setEvmask v).inbox = s.inbox := rfl
@[simp] theorem State.setEvmask_outbox (v : Bool) : (s.setEvmask v).outbox = s.outbox := rfl
@[simp] theorem State.setEvmask_draws (v : Bool) : (s.setEvmask v).draws = s.draws := rfl

/-! ### setDesired -/

@[simp] theorem State.setDesired_tick (i : Nat) (v : Byte) : (s.setDesired i v).tick = s.tick := rfl
@[simp] theorem State.setDesired_btn (i : Nat) (v : Byte) : (s.setDesired i v).btn = s.btn := rfl
@[simp] theorem State.setDesired_off (i : Nat) (v : Byte) : (s.setDesired i v).off = s.off := rfl
@[simp] theorem State.setDesired_ledMode (i : Nat) (v : Byte) : (s.setDesired i v).ledMode = s.ledMode := rfl
@[simp] theorem State.setDesired_duty (i : Nat) (v : Byte) : (s.setDesired i v).duty = s.duty := rfl
@[simp] theorem State.setDesired_level (i : Nat) (v : Byte) : (s.setDesired i v).level = s.level := rfl
@[simp] theorem State.setDesired_dirUp (i : Nat) (v : Byte) : (s.setDesired i v).dirUp = s.dirUp := rfl
@[simp] theorem State.setDesired_sub (i : Nat) (v : Byte) : (s.setDesired i v).sub = s.sub := rfl
@[simp] theorem State.setDesired_flashDiv (i : Nat) (v : Byte) : (s.setDesired i v).flashDiv = s.flashDiv := rfl
@[simp] theorem State.setDesired_polarity (i : Nat) (v : Byte) : (s.setDesired i v).polarity = s.polarity := rfl
@[simp] theorem State.setDesired_desired (i : Nat) (v : Byte) : (s.setDesired i v).desired = s.desired.set i v := rfl
@[simp] theorem State.setDesired_programmed (i : Nat) (v : Byte) : (s.setDesired i v).programmed = s.programmed := rfl
@[simp] theorem State.setDesired_offset (i : Nat) (v : Byte) : (s.setDesired i v).offset = s.offset := rfl
@[simp] theorem State.setDesired_ie (i : Nat) (v : Byte) : (s.setDesired i v).ie = s.ie := rfl
@[simp] theorem State.setDesired_evmask (i : Nat) (v : Byte) : (s.setDesired i v).evmask = s.evmask := rfl
@[simp] theorem State.setDesired_nv (i : Nat) (v : Byte) : (s.setDesired i v).nv = s.nv := rfl
@[simp] theorem State.setDesired_nvBusy (i : Nat) (v : Byte) : (s.setDesired i v).nvBusy = s.nvBusy := rfl
@[simp] theorem State.setDesired_nvPa (i : Nat) (v : Byte) : (s.setDesired i v).nvPa = s.nvPa := rfl
@[simp] theorem State.setDesired_nvPd (i : Nat) (v : Byte) : (s.setDesired i v).nvPd = s.nvPd := rfl
@[simp] theorem State.setDesired_fault (i : Nat) (v : Byte) : (s.setDesired i v).fault = s.fault := rfl
@[simp] theorem State.setDesired_params (i : Nat) (v : Byte) : (s.setDesired i v).params = s.params := rfl
@[simp] theorem State.setDesired_inbox (i : Nat) (v : Byte) : (s.setDesired i v).inbox = s.inbox := rfl
@[simp] theorem State.setDesired_outbox (i : Nat) (v : Byte) : (s.setDesired i v).outbox = s.outbox := rfl
@[simp] theorem State.setDesired_draws (i : Nat) (v : Byte) : (s.setDesired i v).draws = s.draws := rfl

/-! ### setProgrammed -/

@[simp] theorem State.setProgrammed_tick (i : Nat) (v : Byte) : (s.setProgrammed i v).tick = s.tick := rfl
@[simp] theorem State.setProgrammed_btn (i : Nat) (v : Byte) : (s.setProgrammed i v).btn = s.btn := rfl
@[simp] theorem State.setProgrammed_off (i : Nat) (v : Byte) : (s.setProgrammed i v).off = s.off := rfl
@[simp] theorem State.setProgrammed_ledMode (i : Nat) (v : Byte) : (s.setProgrammed i v).ledMode = s.ledMode := rfl
@[simp] theorem State.setProgrammed_duty (i : Nat) (v : Byte) : (s.setProgrammed i v).duty = s.duty := rfl
@[simp] theorem State.setProgrammed_level (i : Nat) (v : Byte) : (s.setProgrammed i v).level = s.level := rfl
@[simp] theorem State.setProgrammed_dirUp (i : Nat) (v : Byte) : (s.setProgrammed i v).dirUp = s.dirUp := rfl
@[simp] theorem State.setProgrammed_sub (i : Nat) (v : Byte) : (s.setProgrammed i v).sub = s.sub := rfl
@[simp] theorem State.setProgrammed_flashDiv (i : Nat) (v : Byte) : (s.setProgrammed i v).flashDiv = s.flashDiv := rfl
@[simp] theorem State.setProgrammed_polarity (i : Nat) (v : Byte) : (s.setProgrammed i v).polarity = s.polarity := rfl
@[simp] theorem State.setProgrammed_desired (i : Nat) (v : Byte) : (s.setProgrammed i v).desired = s.desired := rfl
@[simp] theorem State.setProgrammed_programmed (i : Nat) (v : Byte) : (s.setProgrammed i v).programmed = s.programmed.set i v := rfl
@[simp] theorem State.setProgrammed_offset (i : Nat) (v : Byte) : (s.setProgrammed i v).offset = s.offset := rfl
@[simp] theorem State.setProgrammed_ie (i : Nat) (v : Byte) : (s.setProgrammed i v).ie = s.ie := rfl
@[simp] theorem State.setProgrammed_evmask (i : Nat) (v : Byte) : (s.setProgrammed i v).evmask = s.evmask := rfl
@[simp] theorem State.setProgrammed_nv (i : Nat) (v : Byte) : (s.setProgrammed i v).nv = s.nv := rfl
@[simp] theorem State.setProgrammed_nvBusy (i : Nat) (v : Byte) : (s.setProgrammed i v).nvBusy = s.nvBusy := rfl
@[simp] theorem State.setProgrammed_nvPa (i : Nat) (v : Byte) : (s.setProgrammed i v).nvPa = s.nvPa := rfl
@[simp] theorem State.setProgrammed_nvPd (i : Nat) (v : Byte) : (s.setProgrammed i v).nvPd = s.nvPd := rfl
@[simp] theorem State.setProgrammed_fault (i : Nat) (v : Byte) : (s.setProgrammed i v).fault = s.fault := rfl
@[simp] theorem State.setProgrammed_params (i : Nat) (v : Byte) : (s.setProgrammed i v).params = s.params := rfl
@[simp] theorem State.setProgrammed_inbox (i : Nat) (v : Byte) : (s.setProgrammed i v).inbox = s.inbox := rfl
@[simp] theorem State.setProgrammed_outbox (i : Nat) (v : Byte) : (s.setProgrammed i v).outbox = s.outbox := rfl
@[simp] theorem State.setProgrammed_draws (i : Nat) (v : Byte) : (s.setProgrammed i v).draws = s.draws := rfl

/-! ### setScan -/

@[simp] theorem State.setScan_tick (o : Byte) (e : Bool) : (s.setScan o e).tick = s.tick := rfl
@[simp] theorem State.setScan_btn (o : Byte) (e : Bool) : (s.setScan o e).btn = s.btn := rfl
@[simp] theorem State.setScan_off (o : Byte) (e : Bool) : (s.setScan o e).off = s.off := rfl
@[simp] theorem State.setScan_ledMode (o : Byte) (e : Bool) : (s.setScan o e).ledMode = s.ledMode := rfl
@[simp] theorem State.setScan_duty (o : Byte) (e : Bool) : (s.setScan o e).duty = s.duty := rfl
@[simp] theorem State.setScan_level (o : Byte) (e : Bool) : (s.setScan o e).level = s.level := rfl
@[simp] theorem State.setScan_dirUp (o : Byte) (e : Bool) : (s.setScan o e).dirUp = s.dirUp := rfl
@[simp] theorem State.setScan_sub (o : Byte) (e : Bool) : (s.setScan o e).sub = s.sub := rfl
@[simp] theorem State.setScan_flashDiv (o : Byte) (e : Bool) : (s.setScan o e).flashDiv = s.flashDiv := rfl
@[simp] theorem State.setScan_polarity (o : Byte) (e : Bool) : (s.setScan o e).polarity = s.polarity := rfl
@[simp] theorem State.setScan_desired (o : Byte) (e : Bool) : (s.setScan o e).desired = s.desired := rfl
@[simp] theorem State.setScan_programmed (o : Byte) (e : Bool) : (s.setScan o e).programmed = s.programmed := rfl
@[simp] theorem State.setScan_offset (o : Byte) (e : Bool) : (s.setScan o e).offset = o := rfl
@[simp] theorem State.setScan_ie (o : Byte) (e : Bool) : (s.setScan o e).ie = e := rfl
@[simp] theorem State.setScan_evmask (o : Byte) (e : Bool) : (s.setScan o e).evmask = s.evmask := rfl
@[simp] theorem State.setScan_nv (o : Byte) (e : Bool) : (s.setScan o e).nv = s.nv := rfl
@[simp] theorem State.setScan_nvBusy (o : Byte) (e : Bool) : (s.setScan o e).nvBusy = s.nvBusy := rfl
@[simp] theorem State.setScan_nvPa (o : Byte) (e : Bool) : (s.setScan o e).nvPa = s.nvPa := rfl
@[simp] theorem State.setScan_nvPd (o : Byte) (e : Bool) : (s.setScan o e).nvPd = s.nvPd := rfl
@[simp] theorem State.setScan_fault (o : Byte) (e : Bool) : (s.setScan o e).fault = s.fault := rfl
@[simp] theorem State.setScan_params (o : Byte) (e : Bool) : (s.setScan o e).params = s.params := rfl
@[simp] theorem State.setScan_inbox (o : Byte) (e : Bool) : (s.setScan o e).inbox = s.inbox := rfl
@[simp] theorem State.setScan_outbox (o : Byte) (e : Bool) : (s.setScan o e).outbox = s.outbox := rfl
@[simp] theorem State.setScan_draws (o : Byte) (e : Bool) : (s.setScan o e).draws = s.draws := rfl

/-! ### nvIssue -/

@[simp] theorem State.nvIssue_tick (a : StoreAddr) (v : Byte) : (s.nvIssue a v).tick = s.tick := rfl
@[simp] theorem State.nvIssue_btn (a : StoreAddr) (v : Byte) : (s.nvIssue a v).btn = s.btn := rfl
@[simp] theorem State.nvIssue_off (a : StoreAddr) (v : Byte) : (s.nvIssue a v).off = s.off := rfl
@[simp] theorem State.nvIssue_ledMode (a : StoreAddr) (v : Byte) : (s.nvIssue a v).ledMode = s.ledMode := rfl
@[simp] theorem State.nvIssue_duty (a : StoreAddr) (v : Byte) : (s.nvIssue a v).duty = s.duty := rfl
@[simp] theorem State.nvIssue_level (a : StoreAddr) (v : Byte) : (s.nvIssue a v).level = s.level := rfl
@[simp] theorem State.nvIssue_dirUp (a : StoreAddr) (v : Byte) : (s.nvIssue a v).dirUp = s.dirUp := rfl
@[simp] theorem State.nvIssue_sub (a : StoreAddr) (v : Byte) : (s.nvIssue a v).sub = s.sub := rfl
@[simp] theorem State.nvIssue_flashDiv (a : StoreAddr) (v : Byte) : (s.nvIssue a v).flashDiv = s.flashDiv := rfl
@[simp] theorem State.nvIssue_polarity (a : StoreAddr) (v : Byte) : (s.nvIssue a v).polarity = s.polarity := rfl
@[simp] theorem State.nvIssue_desired (a : StoreAddr) (v : Byte) : (s.nvIssue a v).desired = s.desired := rfl
@[simp] theorem State.nvIssue_programmed (a : StoreAddr) (v : Byte) : (s.nvIssue a v).programmed = s.programmed := rfl
@[simp] theorem State.nvIssue_offset (a : StoreAddr) (v : Byte) : (s.nvIssue a v).offset = s.offset := rfl
@[simp] theorem State.nvIssue_ie (a : StoreAddr) (v : Byte) : (s.nvIssue a v).ie = s.ie := rfl
@[simp] theorem State.nvIssue_evmask (a : StoreAddr) (v : Byte) : (s.nvIssue a v).evmask = s.evmask := rfl
@[simp] theorem State.nvIssue_nv (a : StoreAddr) (v : Byte) : (s.nvIssue a v).nv = s.nv := rfl
@[simp] theorem State.nvIssue_nvBusy (a : StoreAddr) (v : Byte) : (s.nvIssue a v).nvBusy = true := rfl
@[simp] theorem State.nvIssue_nvPa (a : StoreAddr) (v : Byte) : (s.nvIssue a v).nvPa = a := rfl
@[simp] theorem State.nvIssue_nvPd (a : StoreAddr) (v : Byte) : (s.nvIssue a v).nvPd = v := rfl
@[simp] theorem State.nvIssue_fault (a : StoreAddr) (v : Byte) : (s.nvIssue a v).fault = s.fault := rfl
@[simp] theorem State.nvIssue_params (a : StoreAddr) (v : Byte) : (s.nvIssue a v).params = s.params := rfl
@[simp] theorem State.nvIssue_inbox (a : StoreAddr) (v : Byte) : (s.nvIssue a v).inbox = s.inbox := rfl
@[simp] theorem State.nvIssue_outbox (a : StoreAddr) (v : Byte) : (s.nvIssue a v).outbox = s.outbox := rfl
@[simp] theorem State.nvIssue_draws (a : StoreAddr) (v : Byte) : (s.nvIssue a v).draws = s.draws := rfl

/-! ### nvComplete -/

@[simp] theorem State.nvComplete_tick : s.nvComplete.tick = s.tick := rfl
@[simp] theorem State.nvComplete_btn : s.nvComplete.btn = s.btn := rfl
@[simp] theorem State.nvComplete_off : s.nvComplete.off = s.off := rfl
@[simp] theorem State.nvComplete_ledMode : s.nvComplete.ledMode = s.ledMode := rfl
@[simp] theorem State.nvComplete_duty : s.nvComplete.duty = s.duty := rfl
@[simp] theorem State.nvComplete_level : s.nvComplete.level = s.level := rfl
@[simp] theorem State.nvComplete_dirUp : s.nvComplete.dirUp = s.dirUp := rfl
@[simp] theorem State.nvComplete_sub : s.nvComplete.sub = s.sub := rfl
@[simp] theorem State.nvComplete_flashDiv : s.nvComplete.flashDiv = s.flashDiv := rfl
@[simp] theorem State.nvComplete_polarity : s.nvComplete.polarity = s.polarity := rfl
@[simp] theorem State.nvComplete_desired : s.nvComplete.desired = s.desired := rfl
@[simp] theorem State.nvComplete_programmed : s.nvComplete.programmed = s.programmed := rfl
@[simp] theorem State.nvComplete_offset : s.nvComplete.offset = s.offset := rfl
@[simp] theorem State.nvComplete_ie : s.nvComplete.ie = s.ie := rfl
@[simp] theorem State.nvComplete_evmask : s.nvComplete.evmask = s.evmask := rfl
@[simp] theorem State.nvComplete_nv : s.nvComplete.nv = Memory.write s.nv s.nvPa.toNat s.writeResult := rfl
@[simp] theorem State.nvComplete_nvBusy : s.nvComplete.nvBusy = false := rfl
@[simp] theorem State.nvComplete_nvPa : s.nvComplete.nvPa = s.nvPa := rfl
@[simp] theorem State.nvComplete_nvPd : s.nvComplete.nvPd = s.nvPd := rfl
@[simp] theorem State.nvComplete_fault : s.nvComplete.fault = s.fault := rfl
@[simp] theorem State.nvComplete_params : s.nvComplete.params = s.params := rfl
@[simp] theorem State.nvComplete_inbox : s.nvComplete.inbox = s.inbox := rfl
@[simp] theorem State.nvComplete_outbox : s.nvComplete.outbox = s.outbox := rfl
@[simp] theorem State.nvComplete_draws : s.nvComplete.draws = s.drawsAfterWrite := rfl

/-! ### setInbox -/

@[simp] theorem State.setInbox_tick (ws : List Word) : (s.setInbox ws).tick = s.tick := rfl
@[simp] theorem State.setInbox_btn (ws : List Word) : (s.setInbox ws).btn = s.btn := rfl
@[simp] theorem State.setInbox_off (ws : List Word) : (s.setInbox ws).off = s.off := rfl
@[simp] theorem State.setInbox_ledMode (ws : List Word) : (s.setInbox ws).ledMode = s.ledMode := rfl
@[simp] theorem State.setInbox_duty (ws : List Word) : (s.setInbox ws).duty = s.duty := rfl
@[simp] theorem State.setInbox_level (ws : List Word) : (s.setInbox ws).level = s.level := rfl
@[simp] theorem State.setInbox_dirUp (ws : List Word) : (s.setInbox ws).dirUp = s.dirUp := rfl
@[simp] theorem State.setInbox_sub (ws : List Word) : (s.setInbox ws).sub = s.sub := rfl
@[simp] theorem State.setInbox_flashDiv (ws : List Word) : (s.setInbox ws).flashDiv = s.flashDiv := rfl
@[simp] theorem State.setInbox_polarity (ws : List Word) : (s.setInbox ws).polarity = s.polarity := rfl
@[simp] theorem State.setInbox_desired (ws : List Word) : (s.setInbox ws).desired = s.desired := rfl
@[simp] theorem State.setInbox_programmed (ws : List Word) : (s.setInbox ws).programmed = s.programmed := rfl
@[simp] theorem State.setInbox_offset (ws : List Word) : (s.setInbox ws).offset = s.offset := rfl
@[simp] theorem State.setInbox_ie (ws : List Word) : (s.setInbox ws).ie = s.ie := rfl
@[simp] theorem State.setInbox_evmask (ws : List Word) : (s.setInbox ws).evmask = s.evmask := rfl
@[simp] theorem State.setInbox_nv (ws : List Word) : (s.setInbox ws).nv = s.nv := rfl
@[simp] theorem State.setInbox_nvBusy (ws : List Word) : (s.setInbox ws).nvBusy = s.nvBusy := rfl
@[simp] theorem State.setInbox_nvPa (ws : List Word) : (s.setInbox ws).nvPa = s.nvPa := rfl
@[simp] theorem State.setInbox_nvPd (ws : List Word) : (s.setInbox ws).nvPd = s.nvPd := rfl
@[simp] theorem State.setInbox_fault (ws : List Word) : (s.setInbox ws).fault = s.fault := rfl
@[simp] theorem State.setInbox_params (ws : List Word) : (s.setInbox ws).params = s.params := rfl
@[simp] theorem State.setInbox_inbox (ws : List Word) : (s.setInbox ws).inbox = ws := rfl
@[simp] theorem State.setInbox_outbox (ws : List Word) : (s.setInbox ws).outbox = s.outbox := rfl
@[simp] theorem State.setInbox_draws (ws : List Word) : (s.setInbox ws).draws = s.draws := rfl

/-! ### Channels -/

@[simp] theorem Rgb.get_set_same {α : Type} (x : Rgb α) (c : Channel) (v : α) : (x.set c v).get c = v := by
  cases c <;> rfl

theorem Rgb.get_set_other {α : Type} (x : Rgb α) (c d : Channel) (v : α) (h : d ≠ c) :
    (x.set c v).get d = x.get d := by
  cases c <;> cases d <;> first | rfl | exact absurd rfl h

@[simp] theorem State.reply_reply (v w : Byte) :
    (s.reply v).reply w = { s with outbox := s.outbox ++ [v, w] } := by
  simp [State.reply]

end Sys2Proof.Machine
end

