-- ==== Sys2Proof/Laws/Ops.lean ====
section
/-! SUPPORT. What each shared operation can do, said once: enabling an event, a record-window access, one debounce sample, the
duty of a mode, one waveform step, the scan. Later proofs cite these and unfold none of the operations. -/

namespace Sys2Proof.Machine

open Sys2Proof.Safety

/-! ### Enabling and the record windows -/

/-- An event that has a step is enabled, and its step is the event's own. -/
theorem whenEnabled_eq_next (e : Event) (s t : State) (o : Host.Outcome State Fault Refusal) :
    whenEnabled e s o = .next t ↔ s.enabled e = true ∧ o = .next t := by
  unfold whenEnabled
  split
  · next h => simp [h]
  · next h => simp [h]

theorem whenEnabled_of_enabled (e : Event) (s : State) (o : Host.Outcome State Fault Refusal)
    (h : s.enabled e = true) : whenEnabled e s o = o := if_pos h

theorem whenEnabled_of_not_enabled (e : Event) (s : State) (o : Host.Outcome State Fault Refusal)
    (h : s.enabled e = false) : whenEnabled e s o = .refused (.notEnabled e) :=
  if_neg (by rw [h]; decide)

theorem enabled_tick (s : State) : s.enabled .tick = true ↔ s.evmask = false := by simp [State.enabled]

theorem enabled_pwm (s : State) : s.enabled .pwm = true ↔ s.evmask = false := by simp [State.enabled]

theorem enabled_nvNotify (s : State) :
    s.enabled .nvNotify = true ↔ s.ie = true ∧ s.nvBusy = false ∧ s.evmask = false := by
  simp [State.enabled, and_assoc]

theorem enabled_nvDone (s : State) : s.enabled .nvDone = true ↔ s.nvBusy = true := by simp [State.enabled]

/-- A record-window access has its effect below `REC_N`, and raises UnmappedAccess from there on. -/
theorem inRecord_eq_next (s t u : State) (i : RecIndex) (w : Word) (a : RegAddr) :
    inRecord s i w a t = .next u ↔
      (i.toNat < s.params.recN ∧ u = t) ∨
      (s.params.recN ≤ i.toNat ∧ u = s.raise (.unmappedAccess w a)) := by
  unfold inRecord
  split
  · next h => simp [h, Nat.not_le.2 h, eq_comm]
  · next h => simp [h, Nat.not_lt.1 h, eq_comm]

/-! ### The record -/

theorem recordByte_set (l : List Byte) (k : Nat) (v : Byte) (h : k < l.length) (j : Nat) :
    recordByte (l.set k v) j = if j = k then v else recordByte l j := by
  simp only [recordByte, List.getD_eq_getElem?_getD]
  split
  · next e => subst e; simp [h]
  · next e => rw [List.getElem?_set_ne (Ne.symm e)]

theorem recordAddr_eq (p : Config.Params) (k : Nat) : recordAddr p k = BitVec.ofNat 16 (p.stateBase + k) := by
  simp [recordAddr, BitVec.ofNat_add]

/-- In a well-formed launch the address of a record byte does not wrap. -/
theorem recordAddr_toNat (p : Config.Params) (h : launchOk p) (k : Nat) (hk : k < p.recN) :
    (recordAddr p k).toNat = p.stateBase + k := by
  have hsize := h.2.2.2.2.2.1
  have hfit := h.2.2.2.2.2.2.1
  rw [recordAddr_eq, BitVec.toNat_ofNat]
  omega

/-! ### The debounce unit -/

/-- One sample of a Debounced Input is R101's. -/
theorem debStep_rule (T : Nat) (d : Deb) (r : Bool) (h : d.cnt.toNat < T) (hT : T ≤ 65535) :
    DebRule T r d (debStep T d r) := by
  have hn : (d.cnt + 1).toNat = d.cnt.toNat + 1 := by rw [BitVec.toNat_add]; simp; omega
  simp only [DebRule, debStep, hn]
  split
  · simp_all
  · split
    · next h1 h2 =>
      refine ⟨rfl, fun h => absurd h h1, fun _ _ => ⟨rfl, ?_⟩, fun _ h => absurd h2 h⟩
      cases r <;> cases hs : d.stable <;> simp_all
    · simp_all

/-- One sample keeps the hysteresis counter below the threshold. -/
theorem debStep_cnt_lt (T : Nat) (d : Deb) (r : Bool) (h : d.cnt.toNat < T) : (debStep T d r).cnt.toNat < T := by
  simp only [debStep]
  split
  · simp; omega
  · split
    · simp; omega
    · next h2 => simp only []; rw [BitVec.toNat_add] at *; simp at *; omega

/-! ### The LED unit -/

/-- The mode-to-duty converter is R131's. -/
theorem dutyOf_rule (m : LedMode) (l : Byte) : DutyRule m l (dutyOf m l) := by
  have modes : ∀ m : LedMode, m = 0b00 ∨ m = 0b01 ∨ m = 0b10 ∨ m = 0b11 := by decide
  have h := l.isLt
  rcases modes m with rfl | rfl | rfl | rfl <;> simp [DutyRule, dutyOf, flashBit, onBit]
  omega

/-- The PWM event that ends an interval steps the waveform and reloads the sub-tick. -/
theorem pwmStep_of_sub_one (s : State) (h : s.sub = 1) :
    s.pwmStep = (s.setDuty (dutiesOf s.ledMode s.level)).setWave (nextLevel s.level s.dirUp)
      (turn (nextLevel s.level s.dirUp) s.dirUp) s.flashDiv :=
  if_pos (show s.sub - 1 = 0 by rw [h]; rfl)

/-- Every other PWM event counts the sub-tick down. -/
theorem pwmStep_of_sub_ne_one (s : State) (h : s.sub ≠ 1) :
    s.pwmStep = (s.setDuty (dutiesOf s.ledMode s.level)).setWave s.level s.dirUp (s.sub - 1) :=
  if_neg (show ¬ s.sub - 1 = 0 by intro e; apply h; bv_omega)

/-- A PWM event changes the duties and the waveform only. -/
theorem pwmStep_frame (s : State) :
    s.pwmStep = (s.setDuty (dutiesOf s.ledMode s.level)).setWave s.pwmStep.level s.pwmStep.dirUp s.pwmStep.sub := by
  by_cases h : s.sub = 1
  · rw [pwmStep_of_sub_one s h]; rfl
  · rw [pwmStep_of_sub_ne_one s h]; rfl

/-! ### The NV unit -/

/-- One turn of the scan loop. -/
theorem scanLoop_succ (n : Nat) (s : State) :
    scanLoop (n + 1) s =
      if s.params.recN ≤ s.offset.toNat then s.setScan s.offset false
      else if recordByte s.desired s.offset.toNat ≠ recordByte s.programmed s.offset.toNat then
        s.programByte s.offset.toNat
      else if (s.offset + 1).toNat = s.params.recN then s.setScan (s.offset + 1) false
      else scanLoop n (s.setScan (s.offset + 1) s.ie) := rfl

/-- What the scan leaves alone: all but the programmed copy, the cursor, the pending flag and the write in progress. -/
theorem scanLoop_frame (n : Nat) (s : State) :
    ∃ programmed offset ie nvBusy nvPa nvPd,
      scanLoop n s = { s with programmed, offset, ie, nvBusy, nvPa, nvPd } := by
  induction n generalizing s with
  | zero => exact ⟨s.programmed, s.offset, s.ie, s.nvBusy, s.nvPa, s.nvPd, rfl⟩
  | succ n ih =>
    rw [scanLoop_succ]
    split
    · exact ⟨_, _, _, _, _, _, rfl⟩
    · split
      · exact ⟨_, _, _, _, _, _, rfl⟩
      · split
        · exact ⟨_, _, _, _, _, _, rfl⟩
        · obtain ⟨p, o, e, b, a, d, h⟩ := ih (s.setScan (s.offset + 1) s.ie)
          exact ⟨p, o, e, b, a, d, h⟩

theorem offset_succ (o : Byte) (n : Nat) (h : o.toNat < n) (hn : n ≤ 16) : (o + 1).toNat = o.toNat + 1 := by
  rw [BitVec.toNat_add]
  simp
  omega

/-- The scan stops at the first byte from the cursor on that differs, and writes it. -/
theorem scanLoop_of_differs (n k : Nat) (s : State) (hn : s.params.recN ≤ 16) (hk : k < s.params.recN)
    (ho : s.offset.toNat ≤ k) (hd : Differs s k)
    (hj : ∀ j, s.offset.toNat ≤ j → j < k → ¬ Differs s j) (hf : k - s.offset.toNat < n) :
    scanLoop n s = (s.setScan (BitVec.ofNat 8 k) s.ie).programByte k := by
  induction n generalizing s with
  | zero => omega
  | succ n ih =>
    rw [scanLoop_succ, if_neg (by omega)]
    by_cases e : s.offset.toNat = k
    · rw [if_pos (by rw [e]; exact hd)]
      have hoff : s.offset = BitVec.ofNat 8 k := by rw [← e]; simp
      rw [e, ← hoff]; rfl
    · rw [if_neg (hj _ (Nat.le_refl _) (by omega))]
      have hs := offset_succ s.offset s.params.recN (by omega) hn
      rw [if_neg (by rw [hs]; omega)]
      rw [ih (s.setScan (s.offset + 1) s.ie) hn hk (by simp only [State.setScan_offset]; omega) hd
        (fun j a b => hj j (by simp only [State.setScan_offset] at a; omega) b)
        (by simp only [State.setScan_offset]; omega)]
      rfl

/-- With no byte from the cursor on that differs, the scan ends at `REC_N` and disables itself. -/
theorem scanLoop_of_same (n : Nat) (s : State) (hn : s.params.recN ≤ 16) (ho : s.offset.toNat < s.params.recN)
    (hj : ∀ j, s.offset.toNat ≤ j → j < s.params.recN → ¬ Differs s j) (hf : s.params.recN - s.offset.toNat ≤ n) :
    scanLoop n s = s.setScan (BitVec.ofNat 8 s.params.recN) false := by
  induction n generalizing s with
  | zero => omega
  | succ n ih =>
    rw [scanLoop_succ, if_neg (by omega), if_neg (hj _ (Nat.le_refl _) ho)]
    have hs := offset_succ s.offset s.params.recN (by omega) hn
    by_cases e : (s.offset + 1).toNat = s.params.recN
    · rw [if_pos e]
      have hoff : BitVec.ofNat 8 s.params.recN = s.offset + 1 := by
        rw [← e]
        apply BitVec.eq_of_toNat_eq
        rw [BitVec.toNat_ofNat]
        exact Nat.mod_eq_of_lt (s.offset + 1).isLt
      rw [hoff]
    · rw [if_neg e]
      rw [ih (s.setScan (s.offset + 1) s.ie) hn (by simp only [State.setScan_offset, State.setScan_params]; omega)
        (fun j a b => hj j (by simp only [State.setScan_offset] at a; omega) b)
        (by simp only [State.setScan_offset, State.setScan_params]; omega)]
      rfl

/-! ### What one operation can do -/

/-- The states an operation can leave, by the named update that makes them. -/
inductive Effect (s : State) : State → Prop
  | reply (v : Byte) : Effect s (s.reply v)
  | raise (k : Fault) : Effect s (s.raise k)
  | tick (b o : Bool) : s.evmask = false → Effect s (s.tickStep b o)
  | pwm : s.evmask = false → Effect s s.pwmStep
  | ledMode (c : Channel) (m : LedMode) : Effect s (s.setLedMode c m)
  | flashDiv (d : Byte) : Effect s (s.setFlashDiv d)
  | evmask (v : Bool) : Effect s (s.setEvmask v)
  | desired (i : RecIndex) (v : Byte) : i.toNat < s.params.recN → Effect s (s.setDesired i.toNat v)
  | request : Effect s s.requestWrite
  | none : Effect s s
  | notify : s.ie = true → s.nvBusy = false → s.evmask = false → Effect s s.notifyStep
  | done : s.nvBusy = true → s.nvPa.toNat < s.params.nvSize → Effect s s.nvComplete

/-- Every operation that has a step has one of these effects. -/
theorem exec_effect {i : Instr} {s t : State} (h : exec i s = .next t) : Effect s t := by
  cases i with
  | evTick b o =>
    obtain ⟨he, ht⟩ := (whenEnabled_eq_next _ _ _ _).1 h
    cases ht
    exact .tick b o ((enabled_tick s).1 he)
  | evPwm =>
    obtain ⟨he, ht⟩ := (whenEnabled_eq_next _ _ _ _).1 h
    cases ht
    exact .pwm ((enabled_pwm s).1 he)
  | evNvnotify =>
    obtain ⟨he, ht⟩ := (whenEnabled_eq_next _ _ _ _).1 h
    cases ht
    obtain ⟨a, b, c⟩ := (enabled_nvNotify s).1 he
    exact .notify a b c
  | evNvdone =>
    obtain ⟨he, ht⟩ := (whenEnabled_eq_next _ _ _ _).1 h
    split at ht
    · next hp => cases ht; exact .done ((enabled_nvDone s).1 he) hp
    · cases ht
  | rdDesired i =>
    rcases (inRecord_eq_next _ _ _ _ _ _).1 h with ⟨-, rfl⟩ | ⟨-, rfl⟩
    · exact .reply _
    · exact .raise _
  | rdProgrammed i =>
    rcases (inRecord_eq_next _ _ _ _ _ _).1 h with ⟨-, rfl⟩ | ⟨-, rfl⟩
    · exact .reply _
    · exact .raise _
  | wrDesired i d =>
    rcases (inRecord_eq_next _ _ _ _ _ _).1 h with ⟨hi, rfl⟩ | ⟨-, rfl⟩
    · exact .desired i d hi
    · exact .raise _
  | wrNvCtrl d =>
    simp only [exec, execWrNvCtrl] at h
    cases h
    split
    · exact .request
    · exact .none
  | wrLedModeR d | wrLedModeG d | wrLedModeB d => cases h; exact .ledMode _ _
  | wrFlashDiv d => cases h; exact .flashDiv d
  | wrEvmask d => cases h; exact .evmask _
  | _ => cases h; exact .reply _

end Sys2Proof.Machine
end

