-- ==== Sys2Proof/Laws/PerInstr.lean ====
section
/-! SUPPORT. Per instruction: its word carries the fixed bits of its row of spec/opcode_table.json. -/

namespace Sys2Proof.Laws.TableRow

/-- The "match" of the operation's row. -/
def rowMatch : Instr → Word
  | .rdTick0 => 0x0000
  | .rdTick1 => 0x0100
  | .rdTick2 => 0x0200
  | .rdTick3 => 0x0300
  | .rdBtnState => 0x0400
  | .rdOffState => 0x0500
  | .rdPolarity => 0x0600
  | .rdLedModeR => 0x0800
  | .rdLedModeG => 0x0900
  | .rdLedModeB => 0x0A00
  | .wrLedModeR _ => 0x4800
  | .wrLedModeG _ => 0x4900
  | .wrLedModeB _ => 0x4A00
  | .rdFlashDiv => 0x0B00
  | .wrFlashDiv _ => 0x4B00
  | .rdDutyR => 0x0C00
  | .rdDutyG => 0x0D00
  | .rdDutyB => 0x0E00
  | .rdFlashLevel => 0x0F00
  | .rdFlashStatus => 0x1000
  | .rdFlashSub => 0x1100
  | .rdNvCtrl => 0x1200
  | .wrNvCtrl _ => 0x5200
  | .rdNvOffset => 0x1300
  | .rdEvmask => 0x1400
  | .wrEvmask _ => 0x5400
  | .rdDesired _ => 0x2000
  | .wrDesired _ _ => 0x6000
  | .rdProgrammed _ => 0x3000
  | .evTick _ _ => 0x8000
  | .evPwm => 0x8400
  | .evNvnotify => 0x8800
  | .evNvdone => 0x8C00

/-- The "mask" of the operation's row: its fixed bits. -/
def rowMask : Instr → Word
  | .rdTick0 => 0xFFFF
  | .rdTick1 => 0xFFFF
  | .rdTick2 => 0xFFFF
  | .rdTick3 => 0xFFFF
  | .rdBtnState => 0xFFFF
  | .rdOffState => 0xFFFF
  | .rdPolarity => 0xFFFF
  | .rdLedModeR => 0xFFFF
  | .rdLedModeG => 0xFFFF
  | .rdLedModeB => 0xFFFF
  | .wrLedModeR _ => 0xFF00
  | .wrLedModeG _ => 0xFF00
  | .wrLedModeB _ => 0xFF00
  | .rdFlashDiv => 0xFFFF
  | .wrFlashDiv _ => 0xFF00
  | .rdDutyR => 0xFFFF
  | .rdDutyG => 0xFFFF
  | .rdDutyB => 0xFFFF
  | .rdFlashLevel => 0xFFFF
  | .rdFlashStatus => 0xFFFF
  | .rdFlashSub => 0xFFFF
  | .rdNvCtrl => 0xFFFF
  | .wrNvCtrl _ => 0xFF00
  | .rdNvOffset => 0xFFFF
  | .rdEvmask => 0xFFFF
  | .wrEvmask _ => 0xFF00
  | .rdDesired _ => 0xF0FF
  | .wrDesired _ _ => 0xF000
  | .rdProgrammed _ => 0xF0FF
  | .evTick _ _ => 0xFFFC
  | .evPwm => 0xFFFF
  | .evNvnotify => 0xFFFF
  | .evNvdone => 0xFFFF

/-- The word of `i` has the fixed bits of its row, whatever its operands. -/
def Statement (i : Instr) : Prop := encode i &&& rowMask i = rowMatch i

theorem wrWord_fixed (a : RegAddr) (d : Byte) : wrWord a d &&& 0xFF00 = wrWord a 0 := by
  have mask : ∀ k : Fin 16, (0xFF00#16).getLsbD k = decide (8 ≤ k.1) := by decide
  apply BitVec.eq_of_getLsbD_eq
  intro k hk
  have hm : (0xFF00 : Word).getLsbD k = decide (8 ≤ k) := mask ⟨k, hk⟩
  simp only [wrWord, BitVec.getLsbD_and, BitVec.getLsbD_append, hm]
  by_cases h : k < 8
  · simp [h]
  · simp [h, Nat.not_lt.1 h]

theorem wrDesired_fixed (i : RecIndex) : wrWord (desiredAddr i) 0 &&& 0xF000 = 0x6000 := by
  revert i; decide

theorem rdTick0 : Statement .rdTick0 := rfl
theorem rdTick1 : Statement .rdTick1 := rfl
theorem rdTick2 : Statement .rdTick2 := rfl
theorem rdTick3 : Statement .rdTick3 := rfl
theorem rdBtnState : Statement .rdBtnState := rfl
theorem rdOffState : Statement .rdOffState := rfl
theorem rdPolarity : Statement .rdPolarity := rfl
theorem rdLedModeR : Statement .rdLedModeR := rfl
theorem rdLedModeG : Statement .rdLedModeG := rfl
theorem rdLedModeB : Statement .rdLedModeB := rfl
theorem wrLedModeR (d : Byte) : Statement (.wrLedModeR d) := wrWord_fixed _ d
theorem wrLedModeG (d : Byte) : Statement (.wrLedModeG d) := wrWord_fixed _ d
theorem wrLedModeB (d : Byte) : Statement (.wrLedModeB d) := wrWord_fixed _ d
theorem rdFlashDiv : Statement .rdFlashDiv := rfl
theorem wrFlashDiv (d : Byte) : Statement (.wrFlashDiv d) := wrWord_fixed _ d
theorem rdDutyR : Statement .rdDutyR := rfl
theorem rdDutyG : Statement .rdDutyG := rfl
theorem rdDutyB : Statement .rdDutyB := rfl
theorem rdFlashLevel : Statement .rdFlashLevel := rfl
theorem rdFlashStatus : Statement .rdFlashStatus := rfl
theorem rdFlashSub : Statement .rdFlashSub := rfl
theorem rdNvCtrl : Statement .rdNvCtrl := rfl
theorem wrNvCtrl (d : Byte) : Statement (.wrNvCtrl d) := wrWord_fixed _ d
theorem rdNvOffset : Statement .rdNvOffset := rfl
theorem rdEvmask : Statement .rdEvmask := rfl
theorem wrEvmask (d : Byte) : Statement (.wrEvmask d) := wrWord_fixed _ d
theorem rdDesired (i : RecIndex) : Statement (.rdDesired i) := by unfold Statement; revert i; decide
theorem wrDesired (i : RecIndex) (d : Byte) : Statement (.wrDesired i d) := by
  have h : encode (.wrDesired i d) &&& 0xF000 = wrWord (desiredAddr i) d &&& 0xFF00 &&& 0xF000 := by
    rw [BitVec.and_assoc]; rfl
  exact h.trans (by rw [wrWord_fixed, wrDesired_fixed]; rfl)
theorem rdProgrammed (i : RecIndex) : Statement (.rdProgrammed i) := by unfold Statement; revert i; decide
theorem evTick (b o : Bool) : Statement (.evTick b o) := by unfold Statement; revert b o; decide
theorem evPwm : Statement .evPwm := rfl
theorem evNvnotify : Statement .evNvnotify := rfl
theorem evNvdone : Statement .evNvdone := rfl

end Sys2Proof.Laws.TableRow
end

