-- ==== Sys2Proof/Laws/Step.lean ====
section
/-! SUPPORT. The step by the next word, its inversion, and runs of operations taken apart and put together. -/

namespace Sys2Proof.Machine

/-- The step where no fault is recorded and an agent issues a word. -/
theorem step_of_word (s : State) (w : Word) (ws : List Word) (hf : s.fault = none) (hi : s.inbox = w :: ws) :
    step s =
      match decode s.params.recN w with
      | .error e => .next ((s.setInbox ws).raise (faultOf e))
      | .ok i => exec i (s.setInbox ws) := by
  unfold step
  split
  · next h => rw [hf] at h; cases h
  · simp only [takeWord, hi]; rfl

/-- A step that answers a state took a word: it raised its fault, or ran its operation. -/
theorem step_next_cases {s t : State} (h : step s = .next t) :
    ∃ w ws, s.fault = none ∧ s.inbox = w :: ws ∧
      ((∃ e, decode s.params.recN w = .error e ∧ t = (s.setInbox ws).raise (faultOf e)) ∨
        ∃ i, decode s.params.recN w = .ok i ∧ exec i (s.setInbox ws) = .next t) := by
  cases hf : s.fault with
  | some k => simp [step, hf] at h
  | none =>
    cases hi : s.inbox with
    | nil => simp [step, hf, takeWord, hi] at h
    | cons w ws =>
      rw [step_of_word s w ws hf hi] at h
      refine ⟨w, ws, rfl, rfl, ?_⟩
      split at h
      · next e he => cases h; exact .inl ⟨e, he, rfl⟩
      · next i he => exact .inr ⟨i, he, h⟩

theorem runAll_nil (s : State) : runAll [] s = .next s := rfl

theorem runAll_cons (i : Instr) (is : List Instr) (s : State) (h : s.fault = none) :
    runAll (i :: is) s =
      match exec i s with
      | .next t => runAll is t
      | .fault k => .fault k
      | .refused r => .refused r := by
  rw [runAll]
  split
  · next h' => rw [h] at h'; cases h'
  · rfl

theorem runAll_cons_next {i : Instr} {is : List Instr} {s t : State} (h : runAll (i :: is) s = .next t) :
    s.fault = none ∧ ∃ u, exec i s = .next u ∧ runAll is u = .next t := by
  rw [runAll] at h
  split at h
  · cases h
  · next hf =>
    split at h
    · next u hu => exact ⟨hf, u, hu, h⟩
    · cases h
    · cases h

theorem runAll_append {is : List Instr} {s t : State} (js : List Instr) (h : runAll is s = .next t) :
    runAll (is ++ js) s = runAll js t := by
  induction is generalizing s with
  | nil => cases h; rfl
  | cons i is ih =>
    obtain ⟨hf, u, hu, hr⟩ := runAll_cons_next h
    rw [List.cons_append, runAll_cons _ _ _ hf, hu]
    exact ih hr

theorem runAll_append_next {is js : List Instr} {s t : State} (h : runAll (is ++ js) s = .next t) :
    ∃ u, runAll is s = .next u ∧ runAll js u = .next t := by
  induction is generalizing s with
  | nil => exact ⟨s, rfl, h⟩
  | cons i is ih =>
    obtain ⟨hf, u, hu, hr⟩ := runAll_cons_next h
    obtain ⟨v, hv, hj⟩ := ih hr
    exact ⟨v, by rw [runAll_cons _ _ _ hf, hu]; exact hv, hj⟩

end Sys2Proof.Machine
end

