-- ==== Sys2Proof/Tests/Slice0.lean ====
section
/-! SUPPORT. Tests of the model against the spec's own words and vectors (30_encoding.md, 95_test_vectors.md), ill-formed
operations refused, and for each statement that has hypotheses a state and operands that meet them. -/

namespace Sys2Proof.Tests

open Sys2Proof Sys2Proof.Machine Sys2Proof.Safety

/-! ### Small states -/

/-- The state an operation leaves, where it has a step. -/
def after (i : Instr) (s : State) : Option State :=
  match exec i s with
  | .next t => some t
  | .fault _ => none
  | .refused _ => none

/-- The state a step leaves, where there is one. -/
def stepped (s : State) : Option State :=
  match step s with
  | .next t => some t
  | .fault _ => none
  | .refused _ => none

/-- The stop an operation answers. -/
def stopOf (i : Instr) (s : State) : Option (Fault ⊕ Refusal) :=
  match exec i s with
  | .next _ => none
  | .fault k => some (.inl k)
  | .refused r => some (.inr r)

/-- Power-on with the launch of 95_test_vectors.md. -/
def s0 : State := State.powerOn Config.vectorLaunch []

/-- `s0` under the event hold. -/
def held : State := { s0 with evmask := true }

/-- V4.1: the store [1, 9, 3], the desired copy [1, 2, 3], a request made. -/
def pending : State :=
  { s0 with
    nv := [(0x10, 1), (0x11, 9), (0x12, 3)]
    desired := [1, 2, 3]
    programmed := [1, 9, 3]
    ie := true }

/-- V4.2: the write of byte 1 is in progress. -/
def busy : State := { pending with programmed := [1, 2, 3], offset := 1, nvBusy := true, nvPa := 0x0011, nvPd := 2 }

/-- `busy` with the store idle: no byte from the cursor on differs. -/
def reconciled : State := { busy with nvBusy := false }

/-- `busy` in a launch whose completed writes leave any byte. -/
def busyAny : State := { busy with params := { busy.params with nvWriteResult := .any } }

/-- `s0` with the record of one byte. -/
def oneByte : State :=
  { s0 with params := { s0.params with recN := 1 }, desired := [0], programmed := [0] }

/-- V3.1: modes R FLASH, G FLASH-INVERTED, B ON. -/
def flashing : State := { s0 with ledMode := ⟨0b10, 0b11, 0b01⟩ }

/-! ### Well-formedness: an index past the record is refused (R82) -/

theorem test_wf_rdDesired : (Instr.rdDesired 3).wf 3 = false := by decide
theorem test_wf_wrDesired : (Instr.wrDesired 3 0).wf 3 = false := by decide
theorem test_wf_rdProgrammed : (Instr.rdProgrammed 3).wf 3 = false := by decide
theorem test_wf_last_byte : (Instr.wrDesired 2 0).wf 3 = true ∧ (Instr.rdProgrammed 15).wf 16 = true := by decide

/-! ### Decoding: words written out from R70 to R74 and the register map R76 (kind, address, data) -/

theorem test_decode_tick_reads :
    decode 3 0b00_000000_00000000 = .ok .rdTick0 ∧ decode 3 0b00_000001_00000000 = .ok .rdTick1 ∧
    decode 3 0b00_000010_00000000 = .ok .rdTick2 ∧ decode 3 0b00_000011_00000000 = .ok .rdTick3 := by decide
theorem test_decode_input_reads :
    decode 3 0b00_000100_00000000 = .ok .rdBtnState ∧ decode 3 0b00_000101_00000000 = .ok .rdOffState ∧
    decode 3 0b00_000110_00000000 = .ok .rdPolarity := by decide
theorem test_decode_mode_reads :
    decode 3 0b00_001000_00000000 = .ok .rdLedModeR ∧ decode 3 0b00_001001_00000000 = .ok .rdLedModeG ∧
    decode 3 0b00_001010_00000000 = .ok .rdLedModeB := by decide
theorem test_decode_mode_writes :
    decode 3 0b01_001000_11111110 = .ok (.wrLedModeR 0xFE) ∧
    decode 3 0b01_001001_00000011 = .ok (.wrLedModeG 0x03) ∧
    decode 3 0b01_001010_00000001 = .ok (.wrLedModeB 0x01) := by decide
theorem test_decode_flash_div :
    decode 3 0b00_001011_00000000 = .ok .rdFlashDiv ∧ decode 3 0b01_001011_10000001 = .ok (.wrFlashDiv 0x81) := by decide
theorem test_decode_duty_reads :
    decode 3 0b00_001100_00000000 = .ok .rdDutyR ∧ decode 3 0b00_001101_00000000 = .ok .rdDutyG ∧
    decode 3 0b00_001110_00000000 = .ok .rdDutyB := by decide
theorem test_decode_wave_reads :
    decode 3 0b00_001111_00000000 = .ok .rdFlashLevel ∧ decode 3 0b00_010000_00000000 = .ok .rdFlashStatus ∧
    decode 3 0b00_010001_00000000 = .ok .rdFlashSub := by decide
theorem test_decode_nv :
    decode 3 0b00_010010_00000000 = .ok .rdNvCtrl ∧ decode 3 0b01_010010_00000001 = .ok (.wrNvCtrl 0x01) ∧
    decode 3 0b00_010011_00000000 = .ok .rdNvOffset := by decide
theorem test_decode_evmask :
    decode 3 0b00_010100_00000000 = .ok .rdEvmask ∧ decode 3 0b01_010100_00000001 = .ok (.wrEvmask 0x01) := by decide
theorem test_decode_record :
    decode 3 0b00_100010_00000000 = .ok (.rdDesired 2) ∧ decode 3 0b01_100001_01000010 = .ok (.wrDesired 1 0x42) ∧
    decode 3 0b00_110010_00000000 = .ok (.rdProgrammed 2) := by decide
theorem test_decode_events :
    decode 3 0b10_0000_00000000_01 = .ok (.evTick true false) ∧ decode 3 0b10_0000_00000000_10 = .ok (.evTick false true) ∧
    decode 3 0b10_0001_00000000_00 = .ok .evPwm ∧ decode 3 0b10_0010_00000000_00 = .ok .evNvnotify ∧
    decode 3 0b10_0011_00000000_00 = .ok .evNvdone := by decide

/-- V6.1 to V6.10, V4.13, V4.14, V4.16, V1.11, V3.12. -/
theorem test_decode_illegal :
    decode 3 0xC000 = .error (.illegalWord 0xC000) ∧ decode 3 0x0001 = .error (.illegalWord 0x0001) ∧
    decode 3 0x0701 = .error (.illegalWord 0x0701) ∧ decode 3 0x8401 = .error (.illegalWord 0x8401) ∧
    decode 3 0x9000 = .error (.illegalWord 0x9000) ∧ decode 3 0x8004 = .error (.illegalWord 0x8004) ∧
    decode 3 0x8003 = .ok (.evTick true true) := by decide
theorem test_decode_unmapped :
    decode 3 0x0700 = .error (.unmappedAccess 0x0700 0x07) ∧ decode 3 0x1500 = .error (.unmappedAccess 0x1500 0x15) ∧
    decode 1 0x2100 = .error (.unmappedAccess 0x2100 0x21) ∧ decode 1 0x7100 = .error (.unmappedAccess 0x7100 0x31) := by
  decide
theorem test_decode_read_only :
    decode 3 0x4005 = .error (.readOnlyWrite 0x4005 0x00) ∧ decode 3 0x4600 = .error (.readOnlyWrite 0x4600 0x06) ∧
    decode 3 0x4C00 = .error (.readOnlyWrite 0x4C00 0x0C) ∧ decode 3 0x5300 = .error (.readOnlyWrite 0x5300 0x13) ∧
    decode 1 0x7000 = .error (.readOnlyWrite 0x7000 0x30) := by decide
theorem test_mapped_and_writable :
    mapped 3 0x22 = true ∧ mapped 3 0x23 = false ∧ writable 3 0x22 = true ∧ writable 3 0x32 = false ∧
    writable 3 0x14 = true ∧ writable 3 0x13 = false := by decide

/-- The table's numbering (bit 0 the least significant) and rows of 16 bits. -/
theorem test_decodeTableWord :
    decodeTableWord 16 0x8400 = some .evPwm ∧ decodeTableWord 16 0x6000 = some (.wrDesired 0 0) ∧
    decodeTableWord 16 0xC000 = none := by decide

/-! ### The debounce unit (95 2.1) -/

/-- V1.1, first sample. -/
theorem test_tick_counts :
    (after (.evTick true false) s0).map (fun t => (t.tick, t.btn, t.off)) =
      some (1, ⟨true, 1, false⟩, ⟨false, 0, false⟩) := by decide
/-- V1.1, third sample: the flip. -/
theorem test_tick_flips :
    (after (.evTick true false) { s0 with btn := ⟨true, 2, false⟩ }).map (fun t => t.btn) =
      some ⟨true, 0, true⟩ := by decide
/-- V1.3: a low pin on an active-low input is asserted. -/
theorem test_tick_polarity :
    (after (.evTick false false) { s0 with polarity := 0x01 }).map (fun t => (t.btn, t.off)) =
      some (⟨true, 1, false⟩, ⟨false, 0, false⟩) := by decide
/-- V1.5: the counter wraps. -/
theorem test_tick_wraps :
    (after (.evTick false false) { s0 with tick := 0xFFFFFFFF }).map (fun t => t.tick) = some 0 := by decide
/-- V1.9. -/
theorem test_rd_tick :
    (after .rdTick0 { s0 with tick := 0x12345678 }).map (fun t => t.outbox) = some [0x78] ∧
    (after .rdTick1 { s0 with tick := 0x12345678 }).map (fun t => t.outbox) = some [0x56] ∧
    (after .rdTick2 { s0 with tick := 0x12345678 }).map (fun t => t.outbox) = some [0x34] ∧
    (after .rdTick3 { s0 with tick := 0x12345678 }).map (fun t => t.outbox) = some [0x12] := by decide
/-- V1.8, after the second sample. -/
theorem test_rd_inputs :
    (after .rdBtnState { s0 with btn := ⟨false, 0, false⟩, off := ⟨true, 0, true⟩ }).map (fun t => t.outbox) = some [0x00] ∧
    (after .rdOffState { s0 with btn := ⟨false, 0, false⟩, off := ⟨true, 0, true⟩ }).map (fun t => t.outbox) = some [0x03] ∧
    (after .rdBtnState { s0 with btn := ⟨true, 1, false⟩ }).map (fun t => t.outbox) = some [0x02] := by decide
/-- V1.10. -/
theorem test_rd_polarity :
    (after .rdPolarity { s0 with polarity := 0x03 }).map (fun t => t.outbox) = some [0x03] := by decide

/-! ### The LED unit (95 2.3, 2.4) -/

/-- The duty table. -/
theorem test_duty_table :
    ([0, 1, 128, 254, 255].map (dutyOf 0b00) = [0, 0, 0, 0, 0]) ∧
    ([0, 1, 128, 254, 255].map (dutyOf 0b01) = [255, 255, 255, 255, 255]) ∧
    ([0, 1, 128, 254, 255].map (dutyOf 0b10) = [0, 1, 128, 254, 255]) ∧
    ([0, 1, 128, 254, 255].map (dutyOf 0b11) = [255, 254, 127, 1, 0]) := by decide
/-- V3.1. -/
theorem test_pwm_first :
    (after .evPwm flashing).map (fun t => (t.duty, t.level, t.dirUp, t.sub)) = some (⟨0, 255, 255⟩, 1, true, 1) := by decide
/-- V3.2 to V3.3: the turn at 255. -/
theorem test_pwm_turns :
    (after .evPwm { flashing with level := 254 }).map (fun t => (t.duty, t.level, t.dirUp)) =
      some (⟨254, 1, 255⟩, 255, false) ∧
    (after .evPwm { flashing with level := 255, dirUp := false }).map (fun t => (t.duty, t.level, t.dirUp)) =
      some (⟨255, 0, 255⟩, 254, false) := by decide
/-- V3.4: the turn at 0. V3.7: a divisor of 0 counts 256. -/
theorem test_pwm_turns_at_zero :
    (after .evPwm { flashing with level := 1, dirUp := false }).map (fun t => (t.level, t.dirUp)) = some (0, true) ∧
    (after .evPwm { s0 with sub := 0, flashDiv := 0 }).map (fun t => (t.level, t.sub)) = some (0, 255) := by decide
/-- V3.11. -/
theorem test_wr_led_mode :
    (after (.wrLedModeR 0xFE) s0).map (fun t => t.ledMode) = some ⟨0b10, 0b00, 0b00⟩ ∧
    (after (.wrLedModeG 0x03) s0).map (fun t => t.ledMode) = some ⟨0b00, 0b11, 0b00⟩ ∧
    (after (.wrLedModeB 0x01) s0).map (fun t => t.ledMode) = some ⟨0b00, 0b00, 0b01⟩ := by decide
theorem test_rd_led_mode :
    (after .rdLedModeR flashing).map (fun t => t.outbox) = some [0x02] ∧
    (after .rdLedModeG flashing).map (fun t => t.outbox) = some [0x03] ∧
    (after .rdLedModeB flashing).map (fun t => t.outbox) = some [0x01] := by decide
/-- V3.8: the running interval keeps its length. -/
theorem test_flash_div :
    (after (.wrFlashDiv 1) { s0 with sub := 3, flashDiv := 4 }).map (fun t => (t.flashDiv, t.sub)) = some (1, 3) ∧
    (after .rdFlashDiv { s0 with flashDiv := 4 }).map (fun t => t.outbox) = some [0x04] := by decide
/-- P2's end. -/
theorem test_rd_duty_and_wave :
    let s : State := { s0 with duty := ⟨2, 253, 255⟩, level := 3, sub := 2 }
    (after .rdDutyR s).map (fun t => t.outbox) = some [0x02] ∧ (after .rdDutyG s).map (fun t => t.outbox) = some [0xFD] ∧
    (after .rdDutyB s).map (fun t => t.outbox) = some [0xFF] ∧
    (after .rdFlashLevel s).map (fun t => t.outbox) = some [0x03] ∧
    (after .rdFlashStatus s).map (fun t => t.outbox) = some [0x01] ∧
    (after .rdFlashSub s).map (fun t => t.outbox) = some [0x02] := by decide

/-! ### The NV unit (95 2.5) -/

/-- V4.1. V4.15. -/
theorem test_wr_nv_ctrl :
    (after (.wrNvCtrl 0x01) { busy with offset := 2 }).map (fun t => (t.offset, t.ie, t.nvBusy)) = some (0, true, true) ∧
    after (.wrNvCtrl 0x00) s0 = some s0 := by decide
/-- V4.2. -/
theorem test_nvnotify_writes :
    after .evNvnotify pending = some busy := by decide
/-- V4.5. -/
theorem test_nvnotify_disables :
    (after .evNvnotify reconciled).map (fun t => (t.offset, t.ie, t.nvBusy)) = some (3, false, false) := by
  decide
/-- V4.4. -/
theorem test_nvdone_writes :
    (after .evNvdone busy).map (fun t => (t.nv, t.nvBusy, t.programmed)) =
      some ([(0x10, 1), (0x11, 2), (0x12, 3)], false, [1, 2, 3]) := by decide
/-- V4.11: any byte. -/
theorem test_nvdone_any :
    ∃ t, exec .evNvdone busyAny = .next t ∧ Memory.read t.nv 0x11 = Config.drawByte 0 ∧ t.programmed = [1, 2, 3] ∧
      t.nvBusy = false := by
  refine ⟨_, rfl, ?_, rfl, rfl⟩
  show Memory.read (Memory.write [(0x10, 1), (0x11, 9), (0x12, 3)] 0x11 (Config.drawByte 0)) 0x11 = Config.drawByte 0
  simp only [Memory.write, Memory.put]
  by_cases h : Config.drawByte 0 = Memory.unlisted <;> simp [h, Memory.read]
/-- V4.3, V4.6: no step. V5.3 with an idle store: no step. -/
theorem test_nv_not_enabled :
    stopOf .evNvnotify busy = some (.inr (.notEnabled .nvNotify)) ∧
    stopOf .evNvnotify s0 = some (.inr (.notEnabled .nvNotify)) ∧
    stopOf .evNvdone s0 = some (.inr (.notEnabled .nvDone)) := by decide
/-- X1's reads of NV_CTRL; V4.12. -/
theorem test_rd_nv :
    (after .rdNvCtrl s0).map (fun t => t.outbox) = some [0x02] ∧
    (after .rdNvCtrl pending).map (fun t => t.outbox) = some [0x03] ∧
    (after .rdNvCtrl busy).map (fun t => t.outbox) = some [0x01] ∧
    (after .rdNvOffset busy).map (fun t => t.outbox) = some [0x01] := by decide
theorem test_desired :
    (after (.wrDesired 1 0x42) pending).map (fun t => t.desired) = some [1, 0x42, 3] ∧
    (after (.rdDesired 1) pending).map (fun t => t.outbox) = some [2] ∧
    (after (.rdProgrammed 1) pending).map (fun t => t.outbox) = some [9] := by decide
/-- V4.13. -/
theorem test_past_record :
    (after (.rdDesired 1) oneByte).map (fun t => t.fault) = some (some (.unmappedAccess 0x2100 0x21)) := by decide

/-! ### Host control, steps and faults (95 2.6, 2.7, P5) -/

/-- V5.1, V5.4. -/
theorem test_evmask :
    (after (.wrEvmask 0x01) s0).map (fun t => t.evmask) = some true ∧
    (after (.wrEvmask 0xFE) held).map (fun t => t.evmask) = some false ∧
    (after .rdEvmask held).map (fun t => t.outbox) = some [0x01] := by decide
/-- V5.1, V5.3: TICK and PWM have no step under the hold, NVDONE has. -/
theorem test_hold :
    stopOf (.evTick true false) held = some (.inr (.notEnabled .tick)) ∧
    stopOf .evPwm held = some (.inr (.notEnabled .pwm)) ∧
    (after .evNvdone { busy with evmask := true }).map (fun t => t.nvBusy) = some false := by decide
/-- P5, the second word: nothing but the fault changes, and its code is 3. -/
theorem test_fault_step :
    stepped { s0 with inbox := [0x4401, 0x8001] } =
      some { s0 with inbox := [0x8001], fault := some (.readOnlyWrite 0x4401 0x04) } ∧
    (Fault.readOnlyWrite 0x4401 0x04).code = some 3 := by decide
/-- P5, the third word: no step. -/
theorem test_faulted_has_no_step :
    stepped { s0 with inbox := [0x8001], fault := some (.readOnlyWrite 0x4401 0x04) } = none := by decide
/-- A step takes one word and runs it. -/
theorem test_step :
    (stepped { s0 with inbox := [0x8001, 0x8400] }).map (fun t => (t.tick, t.inbox)) = some (1, [0x8400]) ∧
    (stepped (State.reset.withFetchWord 16 0x8400)).map (fun t => (t.level, t.inbox)) = some (1, []) := by decide

/-! ### Launch (R10, R46, R214, R242) -/

/-- V6.12, V6.13. -/
theorem test_launch_refused :
    ¬ launchOk { Config.vectorLaunch with deglitchT := 0 } ∧
    ¬ launchOk { Config.vectorLaunch with recN := 4, stateBase := 0x10, cfgBase := 0x12 } := by decide
/-- X1's reset: both copies loaded from the store. -/
theorem test_launch_loads :
    (State.powerOn { Config.vectorLaunch with recN := 1 } [(0x10, 3)]).desired = [3] ∧
    (State.powerOn { Config.vectorLaunch with recN := 1 } [(0x10, 3)]).programmed = [3] := by decide
theorem test_power_cycle :
    busy.powerCycle.desired = [1, 9, 3] ∧ busy.powerCycle.nvBusy = false ∧ busy.powerCycle.nv = busy.nv := by decide
/-- R84: the six fields in order. -/
theorem test_config_record :
    loadConfigRecord Config.vectorLaunch [(0, 1), (1, 2), (2, 3), (3, 4), (4, 5), (5, 6)] = ⟨1, 2, 3, 4, 5, 6⟩ ∧
    (presentConfigRecord Config.vectorLaunch [(0, 0x03), (1, 7)]).polarity = 0x03 ∧
    (presentConfigRecord Config.vectorLaunch [(0, 0x03), (1, 7)]).flashDivInit = 7 := by decide

/-! ### The host's procedures (95 2.2) -/

/-- V2.1, V2.2. X2. -/
theorem test_host_arithmetic :
    readTickResult 0xFF 0x01 0 0 0x00 = none ∧ readTickResult 0x00 0x01 0 0 0x00 = some 0x100 ∧
    duration 13 10 = 3 ∧ duration 4 0xFFFFFFFF = 5 := by decide

/-! ### Text (R88, R89) -/

theorem test_text_is_case_insensitive : assembleLine "WR  Desired[1] ,0x42;x" = some [0x6142] := by decide
theorem test_text_refuses :
    assembleLine "tick 2, 0" = none ∧ assembleLine "rd tick4" = none ∧ assembleLine "rd desired[16]" = none ∧
    assembleLine "rd 64" = none ∧ assembleLine "pwm 1" = none ∧ assembleLine "set_mode w, 1" = none := by decide

/-! ### Witnesses: each statement's hypotheses, met together -/

theorem witness_DecodeOfEncodeIsIdentity :
    (Instr.rdDesired 2).wf 3 = true ∧ (Instr.wrDesired 15 0xFF).wf 16 = true ∧ (Instr.rdProgrammed 0).wf 1 = true := by
  decide
theorem witness_EncodeOfDecodeIsIdentity : decode 3 0x6242 = .ok (.wrDesired 2 0x42) := by decide
/-- Each clause at an edge of its range (kind, address): K = 3; address 0x15, and the first window address past the record; the
read-only addresses 0x06 and 0x30; the last byte of the record, which is none of these. -/
theorem witness_IllegalWordsFaultInOrder :
    let kind (w : Word) : Nat := w.toNat / 2 ^ 14
    let addr (w : Word) : Nat := w.toNat / 2 ^ 8 % 64
    ((1 : Nat) ≤ 3 ∧ (3 : Nat) ≤ 16) ∧ kind 0xFFFF = 3 ∧
    (kind 0x1500 = 0 ∧ (0x1500 : Word).toNat % 256 = 0 ∧ addr 0x1500 = 0x15) ∧
    (kind 0x6300 = 1 ∧ addr 0x6300 = 0x23 ∧ 3 ≤ addr 0x6300 % 16) ∧
    (kind 0x4600 = 1 ∧ addr 0x4600 = 0x06) ∧ (kind 0x7000 = 1 ∧ addr 0x7000 = 0x30 ∧ addr 0x7000 % 16 < 3) ∧
    (kind 0x6200 = 1 ∧ addr 0x6200 = 0x22 ∧ addr 0x6200 % 16 < 3) := by decide
theorem witness_StepRunsDecodedWord :
    let s : State := { s0 with inbox := [0x8400, 0x8001] }
    s.fault = none ∧ s.inbox = 0x8400 :: [0x8001] ∧ decode s.params.recN 0x8400 = .ok .evPwm := by decide
theorem witness_NoWordNoStep : s0.fault = none ∧ s0.inbox = [] := by decide
theorem witness_PlacedOperationRunsNext : s0.fault = none ∧ (Instr.wrDesired 2 5).wf s0.params.recN = true := by decide
theorem witness_FaultIsRecordedAndFinal :
    let s : State := { s0 with inbox := [0x4401, 0x8001] }
    s.fault = none ∧ s.inbox = 0x4401 :: [0x8001] ∧ decode s.params.recN 0x4401 = .error (.readOnlyWrite 0x4401 0x04) ∧
    ({ s0 with fault := some (.illegalWord 0xC000) } : State).fault = some (.illegalWord 0xC000) := by decide
theorem witness_OnlyRecordAccessesRaiseFaults :
    (after (.rdDesired 2) s0).isSome = true ∧ (Instr.rdDesired 2).wf s0.params.recN = true ∧
    (after (.rdDesired 3) s0).isSome = true ∧ (Instr.rdDesired 3).wf s0.params.recN = false := by decide
theorem witness_HostTransactionsAlwaysStep :
    (Instr.rdProgrammed 2).isRead = true ∧ (Instr.rdProgrammed 2).wf s0.params.recN = true ∧
    (Instr.wrEvmask 1).isWrite = true ∧ (Instr.wrEvmask 1).wf s0.params.recN = true := by decide
/-- The one hypothesis of `ReadsAs`: for TickLanesReadLittleEndian, InputStateReads, PolarityReadsAndIsReadOnly, LedModeReads,
DutyAndWaveformReads and NvAndHoldReads. -/
theorem witness_ReadsAs : (0x01 : Byte) ≠ 0 := by decide
theorem witness_LedModeReads :
    (∃ t u, exec (.wrLedModeR 0xFE) s0 = .next t ∧ exec .rdLedModeR t = .next u) ∧
    (∃ t u, exec (.wrLedModeG 0xFE) s0 = .next t ∧ exec .rdLedModeG t = .next u) ∧
    (∃ t u, exec (.wrLedModeB 0xFE) s0 = .next t ∧ exec .rdLedModeB t = .next u) :=
  ⟨⟨_, _, rfl, rfl⟩, ⟨_, _, rfl, rfl⟩, ⟨_, _, rfl, rfl⟩⟩
/-- Both clauses at the record's end. -/
theorem witness_RecordReads :
    RecordInv pending ∧ (2 : RecIndex).toNat < pending.params.recN ∧ pending.params.recN ≤ (3 : RecIndex).toNat := by decide
theorem witness_ReadsHaveNoSideEffect :
    (Instr.rdDesired 2).isRead = true ∧ (Instr.rdDesired 2).wf s0.params.recN = true := by decide
theorem witness_LedModeWritesTakeLowBits :
    ∃ t u, exec (.wrLedModeR 0xFE) s0 = .next t ∧ exec .evPwm t = .next u := ⟨_, _, rfl, rfl⟩
/-- Both clauses on n: before the interval's end and at it. -/
theorem witness_FlashDivWriteTakesEffectAtNextReload :
    s0.evmask = false ∧ s0.fault = none ∧ 0 < interval s0.sub ∧ 1 = interval s0.sub ∧ interval 0 = 256 := by decide
theorem witness_NvCtrlWriteRequestsOrDoesNothing : (0xFF : Byte).toNat % 2 = 1 ∧ (0xFE : Byte).toNat % 2 = 0 := by decide
theorem witness_DesiredWriteSetsOneByte :
    RecordInv pending ∧ (2 : RecIndex).toNat < pending.params.recN ∧ pending.params.recN ≤ (3 : RecIndex).toNat := by decide
theorem witness_EvmaskWriteTakesBitZero :
    s0.fault = none ∧ (0x01 : Byte).toNat % 2 = 1 ∧ (after (.wrEvmask 0x01) busy).isSome = true ∧ Inv busy ∧
    busy.nvBusy = true := by decide
/-- The waveform's turning points. -/
theorem witness_DutyAndWaveformReads :
    WaveInv s0 ∧ s0.level.toNat = 0 ∧ WaveInv { s0 with level := 255, dirUp := false } := by decide
theorem witness_NvAndHoldReads : Inv busy := by decide
theorem witness_WritesAreIdempotent :
    (Instr.wrDesired 2 7).isWrite = true ∧ (Instr.wrDesired 2 7).wf s0.params.recN = true ∧
    (after (.wrDesired 2 7) s0).isSome = true := by decide

theorem witness_inv_busy : Inv busy := by decide
theorem witness_inv_pending : Inv pending := by decide

theorem witness_EventsStepExactlyWhenEnabled :
    (Inv pending ∧ eventOf .evNvnotify = some .nvNotify ∧ pending.ie = true ∧ pending.nvBusy = false ∧
      pending.evmask = false) ∧
    (Inv busy ∧ eventOf .evNvdone = some .nvDone ∧ busy.nvBusy = true) ∧
    (Inv s0 ∧ eventOf .evPwm = some .pwm ∧ s0.evmask = false) ∧
    (Inv held ∧ eventOf (.evTick true true) = some .tick ∧ ¬ held.evmask = false) :=
  ⟨by decide, by decide, by decide, by decide⟩
theorem witness_TickCountsAndSamplesBothInputs :
    let s : State := { s0 with btn := ⟨true, 2, false⟩ }
    s.evmask = false ∧ DebounceInv s ∧ s.params.deglitchT ≤ 65535 := by decide
theorem witness_PwmDerivesDutiesThenStepsWave :
    let s : State := { flashing with level := 254 }
    s.evmask = false ∧ WaveInv s := by decide
/-- Both waveform clauses: the event that ends an interval, and one that does not. -/
theorem witness_WaveRule : s0.sub.toNat = 1 ∧ ({ s0 with sub := 0 } : State).sub.toNat ≠ 1 := by decide
theorem witness_FlashingChannelsAreSynchronised :
    (after .evPwm flashing).isSome = true ∧ flashing.ledMode.get .r = 0b10 ∧ flashing.ledMode.get .g = 0b11 ∧
    s0.ledMode.get .r = 0b00 ∧ flashing.ledMode.get .b = 0b01 := by decide
/-- The first clause at byte 1 of `pending`, the second in a reconciled state, the third at the cursor REC_N. -/
theorem witness_NotifyScansToFirstDifference :
    (pending.ie = true ∧ pending.nvBusy = false ∧ pending.evmask = false) ∧ Inv pending ∧
    (pending.offset.toNat ≤ 1 ∧ 1 < pending.params.recN ∧ Differs pending 1 ∧ ¬ Differs pending 0) ∧
    (reconciled.ie = true ∧ reconciled.nvBusy = false ∧ reconciled.evmask = false) ∧ Inv reconciled ∧
    (∀ j, j < 3 → ¬ Differs reconciled j) ∧
    (let s : State := { pending with offset := 3 }
     s.ie = true ∧ s.nvBusy = false ∧ s.evmask = false ∧ s.params.recN ≤ s.offset.toNat) :=
  ⟨by decide, by decide, by decide, by decide, by decide, by decide, by decide⟩
theorem witness_NvdoneWritesOneStoreByte :
    (StoreInv busy ∧ busy.nvBusy = true ∧ busy.nvPa.toNat < busy.params.nvSize ∧ busy.params.nvWriteResult = .exact) ∧
    (StoreInv busyAny ∧ busyAny.nvBusy = true ∧ busyAny.nvPa.toNat < busyAny.params.nvSize ∧
      busyAny.params.nvWriteResult = .any) := by decide
/-- A store whose size is the address in progress, one a byte larger, and a state of the invariant. -/
theorem witness_NvdoneFaultsOnlyPastTheStore :
    (let s : State := { busy with params := { busy.params with nvSize := 0x11 } }
     s.nvBusy = true ∧ s.params.nvSize ≤ s.nvPa.toNat ∧ stopOf .evNvdone s = some (.inl (.noStoreByte 0x11))) ∧
    (let s : State := { busy with params := { busy.params with nvSize := 0x12 } }
     s.nvBusy = true ∧ s.nvPa.toNat < s.params.nvSize) ∧
    Inv busy ∧ busy.nvBusy = true := by decide

/-- A state that meets every invariant, and its step: StepKeepsTheInvariant, StepKeepsHysteresisBelowThreshold,
WaveformNeverWraps, CursorStaysInTheRecord, StepKeepsStoreCanonical, OnlyTheStateRecordIsWritten, StoreFollowsProgrammedCopy,
PolarityAndParametersAreConstant. The step completes the write in progress. -/
theorem witness_invariant_step :
    let s : State := { busy with inbox := [0x8C00] }
    Inv s ∧ launchOk s.params ∧ (stepped s).isSome = true := by decide
theorem witness_StepKeepsHysteresisBelowThreshold :
    DebounceInv s0 ∧ (after (.evTick false false) s0).isSome = true ∧ (false ^^ s0.polarity.getLsbD 0) = s0.btn.stable := by
  decide
theorem witness_StoreFollowsProgrammedCopy :
    let s : State := { busy with inbox := [0x8C00] }
    Inv s ∧ (∀ i, i < 3 → (s.nvBusy = true ∧ s.nvPa.toNat = s.params.stateBase + i) ∨
      Memory.read s.nv (s.params.stateBase + i) = recordByte s.programmed i) ∧ (stepped s).isSome = true := by decide

/-- A well-formed launch at the limits: LaunchLeavesResetValues, and (State.launch answers its state) WaveformNeverWraps,
CursorStaysInTheRecord, StoreFollowsProgrammedCopy, LaunchMeetsTheInvariant. -/
theorem witness_launch :
    launchOk { Config.vectorLaunch with deglitchT := 65535, recN := 16, nvSize := 22, stateBase := 6 } := by decide
theorem witness_launch_answers : ∃ s, State.launch Config.vectorLaunch = .next s := ⟨_, if_pos (by decide)⟩
/-- A listed byte and an unlisted one. -/
theorem witness_LaunchStoreHoldsInitialContents :
    let p : Config.Params := { Config.vectorLaunch with nvInit := [(0x10, 3)] }
    launchOk p ∧ 0x10 < p.nvSize ∧ p.nvInit = [] ++ (0x10, 3) :: [] ∧ (∀ c ∈ ([] : List Host.Cell), c.1 ≠ 0x10) ∧
    (∀ c ∈ p.nvInit, c.1 ≠ 0x11) := by decide
/-- Each way to be ill-formed, at its edge. -/
theorem witness_IllFormedLaunchIsRefused :
    let p := Config.vectorLaunch
    (1 ≤ p.nvSize ∧ p.nvSize ≤ 65536) ∧
    (¬ launchOk { p with deglitchT := 65536 } ∧ launchOk { p with deglitchT := 65535 }) ∧
    (¬ launchOk { p with recN := 0 } ∧ ¬ launchOk { p with recN := 17 } ∧ launchOk { p with recN := 16 }) ∧
    (¬ launchOk { p with nvSize := 18 } ∧ launchOk { p with nvSize := 19 }) ∧
    (¬ launchOk { p with cfgBase := 65531 } ∧ launchOk { p with cfgBase := 65530 }) ∧
    (¬ launchOk { p with cfgBase := 0x12 } ∧ launchOk { p with cfgBase := 0x13 }) :=
  ⟨by decide, by decide, by decide, by decide, by decide, by decide⟩
theorem witness_PowerCycleKeepsOnlyTheStore : Inv busy ∧ 2 < busy.params.recN := by decide

theorem witness_EveryFieldHasOneWriter :
    (after (.wrLedModeR 1) s0).isSome = true ∧ isTick (.wrLedModeR 1) = false ∧ isWrEvmask (.wrLedModeR 1) = false ∧
    (Instr.wrLedModeR 1).isRead = false ∧ (after .evNvdone busy).isSome = true ∧ 0x12 ≠ busy.nvPa.toNat := by decide
theorem witness_EnabledEventsCommute :
    eventOf (.evTick true false) = some .tick ∧ eventOf .evNvnotify = some .nvNotify ∧ Event.tick ≠ Event.nvNotify ∧
    (after (.evTick true false) pending).isSome = true ∧ (after .evNvnotify pending).isSome = true := by decide
theorem witness_BlockNeverReadsTheStore :
    (after .evNvnotify pending).isSome = true ∧
    stopOf .evNvdone { busy with params := { busy.params with nvSize := 0x11 } } = some (.inl (.noStoreByte 0x11)) ∧
    stopOf .evPwm held = some (.inr (.notEnabled .pwm)) := by decide

theorem witness_TickCounterCountsTicks : s0.fault = none ∧ s0.evmask = false ∧ [(true, false)].length < 2 ^ 32 := by decide
/-- Two disagreeing samples below the threshold 3, three at it, for each input. -/
theorem witness_StableValueFlipsAtThreshold :
    (Inv s0 ∧ s0.fault = none ∧ s0.evmask = false) ∧
    (∀ p ∈ [(true, false), (true, true), (true, false)], sampleOf s0 p .button ≠ (inputOf s0 .button).stable) ∧
    (∀ p ∈ [(true, true), (false, true), (true, true)], sampleOf s0 p .offSignal ≠ (inputOf s0 .offSignal).stable) ∧
    ((inputOf s0 .button).cnt.toNat + 2 < s0.params.deglitchT ∧
      (inputOf s0 .button).cnt.toNat + 3 = s0.params.deglitchT) ∧
    ((inputOf s0 .offSignal).cnt.toNat + 2 < s0.params.deglitchT ∧
      (inputOf s0 .offSignal).cnt.toNat + 3 = s0.params.deglitchT) :=
  ⟨by decide, by decide, by decide, by decide, by decide⟩

/-- A contiguous part as long as the whole is the whole. -/
theorem infix_of_length {α : Type} {l m : List α} (h : l <:+: m) (hn : l.length = m.length) : l = m :=
  h.sublist.eq_of_length hn

/-- Two disagreeing samples of each input and one that agrees. -/
theorem witness_UnsettledInputNeverFlips :
    Inv s0 ∧ s0.fault = none ∧ s0.evmask = false ∧ ∀ x : Input, (inputOf s0 x).cnt = 0 ∧
    ∀ l, l <:+: [(true, true), (true, true), (false, false)] → l.length = s0.params.deglitchT →
      ∃ p ∈ l, sampleOf s0 p x = (inputOf s0 x).stable := by
  refine ⟨by decide, rfl, rfl, fun x => ⟨by cases x <;> rfl, fun l hl hn => ⟨(false, false), ?_, ?_⟩⟩⟩
  · rw [infix_of_length hl (by rw [hn]; rfl)]
    decide
  · cases x <;> decide
/-- A run without a request or a completion from an idle store, and one with both. -/
theorem witness_HoldFreezesTheUnits :
    (held.evmask = true ∧ held.nvBusy = false ∧ (∀ i ∈ [Instr.wrLedModeR 1, .rdTick0], isWrEvmask i = false) ∧
      (∀ i ∈ [Instr.wrLedModeR 1, .rdTick0], ∀ d, i ≠ .wrNvCtrl d) ∧ Instr.evNvdone ∉ [Instr.wrLedModeR 1, .rdTick0] ∧
      ∃ t, runAll [.wrLedModeR 1, .rdTick0] held = .next t) ∧
    (∀ i ∈ [Instr.wrNvCtrl 1, .evNvdone], isWrEvmask i = false) ∧
    ∃ t, runAll [.wrNvCtrl 1, .evNvdone] { busy with evmask := true } = .next t :=
  ⟨⟨rfl, rfl, by decide, by simp, by decide, _, rfl⟩, by decide, _, rfl⟩
/-- With the store's completion and a mode write between the reads. -/
theorem witness_CriticalSectionReadReturnsCounter :
    s0.fault = none ∧
    (∀ i ∈ [Instr.evNvdone] ++ [.wrLedModeR 1] ++ [] ++ [] ++ [], i.isRead = false ∧ isWrEvmask i = false) ∧
    ∃ t, runAll (.wrEvmask 0x01 :: [.evNvdone] ++ .rdTick0 :: [.wrLedModeR 1] ++ .rdTick1 :: [] ++ .rdTick2 :: [] ++
      .rdTick3 :: [] ++ [.wrEvmask 0x00]) busy = .next t := ⟨by decide, by decide, _, rfl⟩
/-- One TICK between the first two reads. -/
theorem witness_DoubleReadIsNeverTorn :
    (∀ i ∈ [Instr.evTick true false] ++ [] ++ [] ++ [], i.isRead = false) ∧
    ([Instr.evTick true false] ++ [] ++ [] ++ []).countP isTick < 256 ∧
    ∃ t, runAll (.rdTick0 :: [.evTick true false] ++ .rdTick1 :: [] ++ .rdTick2 :: [] ++ .rdTick3 :: [] ++ [.rdTick0]) s0 =
      .next t := ⟨by decide, by decide, _, rfl⟩
theorem witness_WaveformStepsOncePerInterval :
    s0.fault = none ∧ s0.evmask = false ∧ WaveInv s0 ∧ s0.sub = s0.flashDiv ∧ 0 < interval s0.flashDiv ∧
    (let s : State := { s0 with sub := 0, flashDiv := 0 }
     s.fault = none ∧ s.evmask = false ∧ WaveInv s ∧ s.sub = s.flashDiv ∧ 255 < interval s.flashDiv ∧
       s.flashDiv.toNat = 0) := by decide
theorem witness_WaveformPeriodIsExact :
    s0.fault = none ∧ s0.evmask = false ∧ s0.level = 0 ∧ s0.dirUp = true ∧ s0.sub = s0.flashDiv := by decide
theorem witness_DisableMeansReconciled :
    Inv reconciled ∧
    (∀ j, j < 1 → recordByte busy.desired j = recordByte busy.programmed j) ∧ busy.offset.toNat = 1 ∧
    (after .evNvnotify reconciled).map (fun t => t.ie) = some false := by decide
theorem witness_ReconciliationTakesOneWritePerDifference :
    Inv pending ∧ pending.fault = none ∧ pending.ie = true ∧ pending.offset = 0 ∧ pending.nvBusy = false ∧
    pending.evmask = false ∧ 1 ≤ differing pending ∧ pending.params.nvWriteResult = .exact ∧ Differs pending 1 := by decide

end Sys2Proof.Tests
end

section
/-! PROOFS. The launch: when it is refused (R10, R214). -/

namespace Sys2Proof.Machine

/-- A launch faults with BadConfig exactly when its configuration is not well formed (R214). -/
theorem launch_eq_badConfig_iff (p : Config.Params) :
    State.launch p = .fault (.badConfig p) ↔ ¬ launchOk p := by
  unfold State.launch
  split
  · next h => exact iff_of_false nofun (not_not_intro h)
  · next h => exact iff_of_true rfl h

theorem launch_ne_refused (p : Config.Params) (r : Refusal) : State.launch p ≠ .refused r := by
  unfold State.launch
  split <;> nofun

/-- Two non-empty address ranges share an address exactly when neither ends before the other begins: the address they
share is the greater of the two starts. -/
theorem ranges_overlap_iff {b n c m : Nat} (hn : 0 < n) (hm : 0 < m) :
    (∃ a, b ≤ a ∧ a < b + n ∧ c ≤ a ∧ a < c + m) ↔ ¬ (b + n ≤ c ∨ c + m ≤ b) := by
  constructor
  · rintro ⟨a, _, _, _, _⟩
    omega
  · intro h
    exact ⟨max b c, by omega, by omega, by omega, by omega⟩

/-- The negation of R10, clause by clause, with overlap of the two records as a shared address. An empty state record
shares no address, and is ruled out by the bound on its size. -/
theorem not_launchOk_iff (p : Config.Params) (hlo : 1 ≤ p.nvSize) (hhi : p.nvSize ≤ 65536) :
    ¬ launchOk p ↔
      (p.deglitchT < 1 ∨ 65535 < p.deglitchT ∨ p.recN < 1 ∨ 16 < p.recN ∨
        p.nvSize < p.stateBase + p.recN ∨ p.nvSize < p.cfgBase + 6 ∨
        ∃ a, p.stateBase ≤ a ∧ a < p.stateBase + p.recN ∧ p.cfgBase ≤ a ∧ a < p.cfgBase + 6) := by
  simp only [launchOk, cfgRecordSize]
  rcases Nat.eq_zero_or_pos p.recN with hrec | hrec
  · exact iff_of_true (by omega) (.inr (.inr (.inl (by omega))))
  · rw [ranges_overlap_iff hrec (by decide : 0 < 6)]
    omega

end Sys2Proof.Machine

namespace Sys2Proof

open Machine

/-- Settles O44: the launch's one test is `launchOk`, and its negation is the stated list. -/
theorem illFormedLaunchIsRefused : Obligations.IllFormedLaunchIsRefused := by
  intro p hlo hhi
  exact ⟨(launch_eq_badConfig_iff p).trans (not_launchOk_iff p hlo hhi), launch_ne_refused p⟩

end Sys2Proof
end

section
/-! PROOFS. What each operation's step can be, said by the operation (R45), and what a step can be, said as an effect. -/

namespace Sys2Proof.Machine

open Sys2Proof.Safety

/-- A read that has a step returns a byte, or raises a fault past the end of a record window. -/
theorem exec_read_next {i : Instr} {s t : State} (hi : i.isRead = true) (h : exec i s = .next t) :
    (∃ v, t = s.reply v) ∨ ∃ k, t = s.raise k := by
  cases i with
  | rdDesired _ | rdProgrammed _ =>
    exact ((inRecord_eq_next ..).1 h).imp (fun ⟨_, e⟩ => ⟨_, e⟩) (fun ⟨_, e⟩ => ⟨_, e⟩)
  | wrLedModeR _ | wrLedModeG _ | wrLedModeB _ | wrFlashDiv _ | wrNvCtrl _ | wrEvmask _ | wrDesired _ _
  | evTick _ _ | evPwm | evNvnotify | evNvdone => cases hi
  | _ => cases h; exact .inl ⟨_, rfl⟩

theorem exec_wrDesired_next {i : RecIndex} {d : Byte} {s t : State} (h : exec (.wrDesired i d) s = .next t) :
    t = s.setDesired i.toNat d ∨ ∃ k, t = s.raise k :=
  ((inRecord_eq_next ..).1 h).imp (fun ⟨_, e⟩ => e) (fun ⟨_, e⟩ => ⟨_, e⟩)

theorem exec_wrNvCtrl_next {d : Byte} {s t : State} (h : exec (.wrNvCtrl d) s = .next t) :
    t = s.requestWrite ∨ t = s := by
  simp only [exec, execWrNvCtrl] at h
  cases h
  split
  · exact .inl rfl
  · exact .inr rfl

theorem exec_evTick_next {b o : Bool} {s t : State} (h : exec (.evTick b o) s = .next t) :
    t = s.tickStep b o := by
  obtain ⟨-, ⟨⟩⟩ := (whenEnabled_eq_next ..).1 h
  rfl

theorem exec_evPwm_next {s t : State} (h : exec .evPwm s = .next t) : t = s.pwmStep := by
  obtain ⟨-, ⟨⟩⟩ := (whenEnabled_eq_next ..).1 h
  rfl

theorem exec_evNvnotify_next {s t : State} (h : exec .evNvnotify s = .next t) : t = s.notifyStep := by
  obtain ⟨-, ⟨⟩⟩ := (whenEnabled_eq_next ..).1 h
  rfl

theorem exec_evNvdone_next {s t : State} (h : exec .evNvdone s = .next t) : t = s.nvComplete := by
  obtain ⟨-, ht⟩ := (whenEnabled_eq_next ..).1 h
  split at ht
  · cases ht; rfl
  · cases ht

/-- What a notification leaves alone: all but the programmed copy, the cursor, the pending flag and the write in progress. -/
theorem notifyStep_frame (s : State) :
    ∃ programmed offset ie nvBusy nvPa nvPd,
      s.notifyStep = { s with programmed, offset, ie, nvBusy, nvPa, nvPd } := scanLoop_frame _ s

/-- A step that answers a state has the effect of an operation, or raises a fault, on the state without the word taken. -/
theorem step_effect {s t : State} (h : step s = .next t) : ∃ ws, Effect (s.setInbox ws) t := by
  obtain ⟨_, ws, -, -, ⟨_, -, rfl⟩ | ⟨_, -, h⟩⟩ := step_next_cases h
  · exact ⟨ws, .raise _⟩
  · exact ⟨ws, exec_effect h⟩

theorem launch_eq_next {p : Config.Params} {s : State} (h : State.launch p = .next s) :
    launchOk p ∧ s = State.powerOn p (Memory.ofCells p.nvSize p.nvInit) := by
  unfold State.launch at h
  split at h
  · next hp => cases h; exact ⟨hp, rfl⟩
  · cases h

end Sys2Proof.Machine

namespace Sys2Proof

open Machine Safety

/-- Settles O46, by the operation: a read, or one of the eleven other operations, each with its named update. -/
theorem everyFieldHasOneWriter : Obligations.EveryFieldHasOneWriter := by
  unfold Obligations.EveryFieldHasOneWriter SameSession SameDebounce SameLed SameNv SameStore
  intro i s t h
  cases hr : i.isRead with
  | true => obtain ⟨v, rfl⟩ | ⟨k, rfl⟩ := exec_read_next hr h <;> simp
  | false =>
    cases i with
    | wrLedModeR d | wrLedModeG d | wrLedModeB d => cases h; simp [State.setLedMode, Rgb.set]
    | wrFlashDiv d => cases h; simp
    | wrEvmask d => cases h; simp [isWrEvmask]
    | wrDesired j d => obtain rfl | ⟨k, rfl⟩ := exec_wrDesired_next h <;> simp
    | wrNvCtrl d => obtain rfl | rfl := exec_wrNvCtrl_next h <;> simp [State.requestWrite]
    | evTick b o => cases exec_evTick_next h; simp [State.tickStep, isTick]
    | evPwm => rw [exec_evPwm_next h, pwmStep_frame]; simp
    | evNvnotify =>
      obtain ⟨_, _, _, _, _, _, e⟩ := notifyStep_frame s
      rw [exec_evNvnotify_next h, e]
      simp
    | evNvdone =>
      cases exec_evNvdone_next h
      simpa using fun a ha => Memory.read_write_other s.nv s.nvPa.toNat s.writeResult a ha
    | _ => cases hr

end Sys2Proof
end

section
/-! PROOFS. The waveform's invariant (R32): only a PWM event writes the waveform, and its step turns at both ends. -/

namespace Sys2Proof.Machine

open Sys2Proof.Safety

theorem nextLevel_up (l : Byte) (h : l.toNat < 255) : (nextLevel l true).toNat = l.toNat + 1 := by
  rw [nextLevel, if_pos rfl]
  bv_omega

theorem nextLevel_down (l : Byte) (h : 0 < l.toNat) : (nextLevel l false).toNat + 1 = l.toNat := by
  rw [nextLevel, if_neg (by decide)]
  bv_omega

/-- After the level became `l`, the direction is up only below 255 and down only above 0, whatever it was before. -/
theorem turn_inv (l : Byte) (d : Bool) :
    (turn l d = true → l.toNat < 255) ∧ (turn l d = false → 0 < l.toNat) := by
  simp only [turn]
  split
  · next h => simp [h]
  · split
    · next h => simp [h]
    · exact ⟨fun _ => by bv_omega, fun _ => by bv_omega⟩

/-- A step of the level in the invariant's direction does not wrap. -/
theorem nextLevel_moves_by_one {s : State} (h : WaveInv s) :
    (nextLevel s.level s.dirUp).toNat = s.level.toNat + 1 ∨ (nextLevel s.level s.dirUp).toNat + 1 = s.level.toNat := by
  obtain ⟨hup, hdown⟩ := h
  cases hd : s.dirUp with
  | true => exact .inl (nextLevel_up _ (hup hd))
  | false => exact .inr (nextLevel_down _ (hdown hd))

/-- A PWM event keeps the waveform's invariant, and moves the level by at most one. -/
theorem pwmStep_keeps_waveInv {s : State} (h : WaveInv s) :
    WaveInv s.pwmStep ∧ s.pwmStep.level.toNat ≤ s.level.toNat + 1 ∧ s.level.toNat ≤ s.pwmStep.level.toNat + 1 := by
  by_cases hsub : s.sub = 1
  · rw [pwmStep_of_sub_one s hsub]
    have hmove := nextLevel_moves_by_one h
    exact ⟨turn_inv _ _, by simp only [State.setWave_level]; omega, by simp only [State.setWave_level]; omega⟩
  · rw [pwmStep_of_sub_ne_one s hsub]
    exact ⟨h, Nat.le_succ _, Nat.le_succ _⟩

/-- An effect other than a PWM event's leaves the LED unit's fields alone. -/
theorem Effect.pwm_or_sameLed {s t : State} (h : Effect s t) : t = s.pwmStep ∨ SameLed s t := by
  cases h with
  | pwm _ => exact .inl rfl
  | notify _ _ _ =>
    obtain ⟨_, _, _, _, _, _, e⟩ := notifyStep_frame s
    rw [e]
    exact .inr ⟨rfl, rfl, rfl, rfl⟩
  | _ => exact .inr ⟨rfl, rfl, rfl, rfl⟩

theorem Effect.keeps_waveInv {s t : State} (e : Effect s t) (h : WaveInv s) :
    WaveInv t ∧ t.level.toNat ≤ s.level.toNat + 1 ∧ s.level.toNat ≤ t.level.toNat + 1 := by
  obtain rfl | ⟨-, hlevel, hdir, -⟩ := e.pwm_or_sameLed
  · exact pwmStep_keeps_waveInv h
  · simp only [WaveInv, hlevel, hdir]
    exact ⟨h, Nat.le_succ _, Nat.le_succ _⟩

end Sys2Proof.Machine

namespace Sys2Proof

open Machine Safety

/-- Settles O35: the launch starts the waveform upwards from 0, and a step's effect keeps the invariant. -/
theorem waveformNeverWraps : Obligations.WaveformNeverWraps := by
  constructor
  · intro p s h
    obtain ⟨-, rfl⟩ := launch_eq_next h
    exact ⟨fun _ => (by decide : (0 : Byte).toNat < 255), nofun⟩
  · intro s t hinv h
    obtain ⟨ws, e⟩ := step_effect h
    exact e.keeps_waveInv hinv

end Sys2Proof
end

section
/-! PROOFS. The scan cursor's invariant (R38): only a request and a notification write the cursor and the pending flag. -/

namespace Sys2Proof.Machine

open Sys2Proof.Safety

/-- A request puts the cursor on byte 0, which a well-formed launch's record has. -/
theorem requestWrite_scanInv (s : State) (hp : 0 < s.params.recN) : ScanInv s.requestWrite :=
  ⟨Nat.zero_le _, fun _ => hp⟩

/-- The scan keeps the cursor in the record: it steps past a byte only within the record, and disables itself at the
record's end. -/
theorem scanLoop_keeps_scanInv (n : Nat) {s : State} (hn : s.params.recN ≤ 16) (h : ScanInv s) :
    ScanInv (scanLoop n s) := by
  induction n generalizing s with
  | zero => exact h
  | succ n ih =>
    rw [scanLoop_succ]
    split
    · exact ⟨h.1, nofun⟩
    · next hlt =>
      have hs := offset_succ s.offset s.params.recN (Nat.not_le.1 hlt) hn
      split
      · exact h
      · split
        · next hend => exact ⟨Nat.le_of_eq hend, nofun⟩
        · next hend =>
          have hlt' : (s.offset + 1).toNat < s.params.recN := by omega
          exact ih hn ⟨Nat.le_of_lt hlt', fun _ => hlt'⟩

theorem notifyStep_keeps_scanInv {s : State} (hn : s.params.recN ≤ 16) (h : ScanInv s) : ScanInv s.notifyStep :=
  scanLoop_keeps_scanInv _ hn h

/-- No effect changes a launch parameter (R9). -/
theorem Effect.params_eq {s t : State} (h : Effect s t) : t.params = s.params := by
  cases h with
  | pwm _ => rw [pwmStep_frame]; rfl
  | notify _ _ _ =>
    obtain ⟨_, _, _, _, _, _, e⟩ := notifyStep_frame s
    rw [e]
  | _ => rfl

/-- An effect other than a request's or a notification's leaves the cursor and the pending flag alone. -/
theorem Effect.scan_cases {s t : State} (h : Effect s t) :
    t = s.requestWrite ∨ t = s.notifyStep ∨ (t.offset = s.offset ∧ t.ie = s.ie) := by
  cases h with
  | request => exact .inl rfl
  | notify _ _ _ => exact .inr (.inl rfl)
  | pwm _ => rw [pwmStep_frame]; exact .inr (.inr ⟨rfl, rfl⟩)
  | _ => exact .inr (.inr ⟨rfl, rfl⟩)

theorem Effect.keeps_scanInv {s t : State} (e : Effect s t) (hp : launchOk s.params) (h : ScanInv s) : ScanInv t := by
  obtain ⟨-, -, hpos, hmax, -⟩ := hp
  obtain rfl | rfl | ⟨hoffset, hie⟩ := e.scan_cases
  · exact requestWrite_scanInv s hpos
  · exact notifyStep_keeps_scanInv hmax h
  · simp only [ScanInv, hoffset, hie, e.params_eq]
    exact h

end Sys2Proof.Machine

namespace Sys2Proof

open Machine Safety

/-- Settles O36: the launch starts with the cursor at 0 and nothing pending, and a step's effect keeps the invariant. -/
theorem cursorStaysInTheRecord : Obligations.CursorStaysInTheRecord := by
  constructor
  · intro p s h
    obtain ⟨-, rfl⟩ := launch_eq_next h
    exact ⟨Nat.zero_le _, nofun⟩
  · intro s t hp hinv h
    obtain ⟨ws, e⟩ := step_effect h
    exact e.keeps_scanInv hp hinv

end Sys2Proof
end

section
/-! PROOFS. A host read of the launch (R56): one byte is returned, and it depends on no byte returned before. -/

namespace Sys2Proof.Machine

theorem inRecord_of_lt {s : State} {i : RecIndex} (h : i.toNat < s.params.recN) (w : Word) (a : RegAddr) (t : State) :
    inRecord s i w a t = .next t := if_pos h

/-- A read the launch has returns one byte, the same one after another byte was returned: no read looks at the bytes
returned, and the record-window reads (the only ones with a guard) stay inside the record. -/
theorem exec_read_of_wf {i : Instr} {s : State} (hi : i.isRead = true) (hwf : i.wf s.params.recN = true) :
    ∃ v, exec i s = .next (s.reply v) ∧ ∀ w, exec i (s.reply w) = .next ((s.reply w).reply v) := by
  cases i with
  | rdDesired k | rdProgrammed k =>
    have hk : k.toNat < s.params.recN := of_decide_eq_true hwf
    exact ⟨_, inRecord_of_lt hk .., fun w => inRecord_of_lt (s := s.reply w) hk ..⟩
  | wrLedModeR _ | wrLedModeG _ | wrLedModeB _ | wrFlashDiv _ | wrNvCtrl _ | wrEvmask _ | wrDesired _ _
  | evTick _ _ | evPwm | evNvnotify | evNvdone => cases hi
  | _ => exact ⟨_, rfl, fun _ => rfl⟩

end Sys2Proof.Machine

namespace Sys2Proof

open Machine

/-- Settles O19: the first read's byte is the byte read again from the state the first read leaves. -/
theorem readsHaveNoSideEffect : Obligations.ReadsHaveNoSideEffect := by
  intro i s hi hwf
  obtain ⟨v, hfirst, hagain⟩ := exec_read_of_wf hi hwf
  exact ⟨v, hfirst, (hagain v).trans (congrArg _ (State.reply_reply s v v))⟩

end Sys2Proof
end

section
/-! PROOFS. What a word decodes to, in arithmetic on its value (R75, R85, R220): its fields, then the register map
(R76), then each fault and each kind of operation. -/

namespace Sys2Proof

/-! ### The fields of a word -/

/-- The topmost field of a bit vector is the quotient of its value. -/
theorem extractLsb'_top_eq_iff {n s l : Nat} (hn : n = s + l) (x : BitVec n) (b : BitVec l) :
    x.extractLsb' s l = b ↔ x.toNat / 2 ^ s = b.toNat := by
  have hx : x.toNat < 2 ^ s * 2 ^ l := by rw [← Nat.pow_add, ← hn]; exact x.isLt
  rw [← BitVec.toNat_inj, BitVec.extractLsb'_toNat, Nat.shiftRight_eq_div_pow,
    Nat.mod_eq_of_lt (Nat.div_lt_of_lt_mul hx)]

theorem wordKind_eq_iff (w : Word) (k : BitVec 2) : wordKind w = k ↔ w.toNat / 2 ^ 14 = k.toNat := by
  rw [wordKind, extractLsb'_top_eq_iff rfl]

theorem wordAddr_toNat (w : Word) : (wordAddr w).toNat = w.toNat / 2 ^ 8 % 64 := by
  rw [wordAddr, BitVec.extractLsb'_toNat, Nat.shiftRight_eq_div_pow]

theorem wordAddr_eq_ofNat (w : Word) : wordAddr w = BitVec.ofNat 6 (w.toNat / 2 ^ 8 % 64) := by
  rw [← wordAddr_toNat, BitVec.ofNat_toNat, BitVec.setWidth_eq]

theorem wordData_eq_zero_iff (w : Word) : wordData w = 0 ↔ w.toNat % 256 = 0 := by
  rw [← BitVec.toNat_inj, wordData, BitVec.extractLsb'_toNat, Nat.shiftRight_zero]
  rfl

theorem wordEvent_toNat (w : Word) : (wordEvent w).toNat = w.toNat / 2 ^ 10 % 16 := by
  rw [wordEvent, BitVec.extractLsb'_toNat, Nat.shiftRight_eq_div_pow]

theorem wordEvent_eq_zero_iff (w : Word) : wordEvent w = 0b0000 ↔ w.toNat / 2 ^ 10 % 16 = 0 := by
  rw [← BitVec.toNat_inj, wordEvent_toNat]
  rfl

theorem wordEventReserved_eq_zero_iff (w : Word) : wordEventReserved w = 0 ↔ w.toNat / 4 % 256 = 0 := by
  rw [← BitVec.toNat_inj, wordEventReserved, BitVec.extractLsb'_toNat, Nat.shiftRight_eq_div_pow]
  rfl

theorem wordPins_eq_zero_iff (w : Word) : wordPins w = 0 ↔ w.toNat % 4 = 0 := by
  rw [← BitVec.toNat_inj, wordPins, BitVec.extractLsb'_toNat, Nat.shiftRight_zero]
  rfl

/-! ### The register map: which addresses have no read, and which no write -/

theorem window_eq_iff (a : RegAddr) (b : BitVec 2) : a.extractLsb' 4 2 = b ↔ a.toNat / 16 = b.toNat :=
  extractLsb'_top_eq_iff rfl a b

theorem recIndex_toNat (a : RegAddr) : (a.extractLsb' 0 4).toNat = a.toNat % 16 := by
  rw [BitVec.extractLsb'_toNat, Nat.shiftRight_zero]

theorem readRows_lookup_eq_none_iff :
    ∀ a : RegAddr, readRows.lookup a = none ↔ a.toNat = 0x07 ∨ 0x15 ≤ a.toNat := by
  decide

theorem writeRows_lookup_eq_none_iff (d : Byte) (a : RegAddr) :
    (writeRows d).lookup a = none ↔
      ¬ ((0x08 ≤ a.toNat ∧ a.toNat ≤ 0x0B) ∨ a.toNat = 0x12 ∨ a.toNat = 0x14) := by
  simp only [writeRows, List.lookup_eq_none_iff, List.forall_mem_cons, bne_iff_ne, ne_eq,
    ← BitVec.toNat_inj, BitVec.reduceToNat, List.not_mem_nil, IsEmpty.forall_iff, implies_true, and_true]
  omega

/-- The reserved addresses (R76), and those of the two windows past the record (R82). -/
theorem readAt_eq_none_iff (recN : Nat) (a : RegAddr) :
    readAt recN a = none ↔
      a.toNat = 0x07 ∨ (0x15 ≤ a.toNat ∧ a.toNat ≤ 0x1F) ∨ (0x20 ≤ a.toNat ∧ recN ≤ a.toNat % 16) := by
  have ha := a.isLt
  simp only [readAt, window_eq_iff, recIndex_toNat, BitVec.reduceToNat]
  split
  · simp only [ite_eq_right_iff, reduceCtorEq, imp_false]; omega
  · split
    · simp only [ite_eq_right_iff, reduceCtorEq, imp_false]; omega
    · rw [readRows_lookup_eq_none_iff]; omega

/-- All addresses but the RW rows (R76): the six fixed ones, and DESIRED within the record. -/
theorem writeAt_eq_none_iff (recN : Nat) (a : RegAddr) (d : Byte) :
    writeAt recN a d = none ↔
      ¬ ((0x08 ≤ a.toNat ∧ a.toNat ≤ 0x0B) ∨ a.toNat = 0x12 ∨ a.toNat = 0x14 ∨
        (0x20 ≤ a.toNat ∧ a.toNat ≤ 0x2F ∧ a.toNat % 16 < recN)) := by
  simp only [writeAt, window_eq_iff, recIndex_toNat, BitVec.reduceToNat]
  split
  · simp only [ite_eq_right_iff, reduceCtorEq, imp_false]; omega
  · rw [writeRows_lookup_eq_none_iff]; omega

/-! ### Reserved words and events -/

theorem decode_of_kind_three {w : Word} (hk : w.toNat / 2 ^ 14 = 3) (recN : Nat) :
    decode recN w = .error (.illegalWord w) :=
  if_pos ((wordKind_eq_iff w 0b11).2 hk)

theorem decode_of_kind_two {w : Word} (hk : w.toNat / 2 ^ 14 = 2) (recN : Nat) : decode recN w = decodeEvent w := by
  have hk : wordKind w = 0b10 := (wordKind_eq_iff w 0b10).2 hk
  rw [decode, if_neg (by rw [hk]; decide), if_pos hk]

/-- The reserved EV words (R73). -/
abbrev IllegalEvent (w : Word) : Prop :=
  4 ≤ w.toNat / 2 ^ 10 % 16 ∨ w.toNat / 4 % 256 ≠ 0 ∨ (w.toNat / 2 ^ 10 % 16 ≠ 0 ∧ w.toNat % 4 ≠ 0)

theorem decodeEvent_of_illegal {w : Word} (h : IllegalEvent w) : decodeEvent w = .error (.illegalWord w) := by
  simp only [decodeEvent, wordEvent_toNat, ne_eq, wordEventReserved_eq_zero_iff, wordEvent_eq_zero_iff,
    wordPins_eq_zero_iff]
  split
  · rfl
  · next hcode => rw [if_neg (by omega), if_pos (by omega)]

theorem exists_decodeEvent_of_legal {w : Word} (h : ¬ IllegalEvent w) : ∃ i, decodeEvent w = .ok i := by
  simp only [decodeEvent, wordEvent_toNat, ne_eq, wordEventReserved_eq_zero_iff, wordEvent_eq_zero_iff,
    wordPins_eq_zero_iff]
  rw [if_neg (by omega)]
  split
  · exact ⟨_, rfl⟩
  · rw [if_neg (by omega)]
    split
    · exact ⟨_, rfl⟩
    · split <;> exact ⟨_, rfl⟩

/-! ### Reads and writes -/

theorem decode_read_with_data {w : Word} (hk : w.toNat / 2 ^ 14 = 0) (hd : w.toNat % 256 ≠ 0) (recN : Nat) :
    decode recN w = .error (.illegalWord w) := by
  have hk : wordKind w = 0b00 := (wordKind_eq_iff w 0b00).2 hk
  have hd : wordData w ≠ 0 := mt (wordData_eq_zero_iff w).1 hd
  rw [decode, if_neg (by rw [hk]; decide), if_neg (by rw [hk]; decide), if_pos ⟨hk, hd⟩]

theorem eq_rdWord_of_kind_zero {w : Word} (hk : w.toNat / 2 ^ 14 = 0) (hd : w.toNat % 256 = 0) :
    w = rdWord (wordAddr w) := by
  have e := word_eq_fields w
  rwa [(wordKind_eq_iff w 0b00).2 hk, (wordData_eq_zero_iff w).2 hd] at e

theorem eq_wrWord_of_kind_one {w : Word} (hk : w.toNat / 2 ^ 14 = 1) : w = wrWord (wordAddr w) (wordData w) := by
  have e := word_eq_fields w
  rwa [(wordKind_eq_iff w 0b01).2 hk] at e

theorem decode_of_unmapped {recN : Nat} {w : Word} (hk : w.toNat / 2 ^ 14 < 2)
    (hd : w.toNat / 2 ^ 14 = 0 → w.toNat % 256 = 0) (hr : readAt recN (wordAddr w) = none) :
    decode recN w = .error (.unmappedAccess w (wordAddr w)) := by
  obtain hk | hk : w.toNat / 2 ^ 14 = 0 ∨ w.toNat / 2 ^ 14 = 1 := by omega
  · have e := decode_rdWord recN (wordAddr w)
    rwa [← eq_rdWord_of_kind_zero hk (hd hk), hr] at e
  · have e := decode_wrWord recN (wordAddr w) (wordData w)
    rwa [← eq_wrWord_of_kind_one hk, hr] at e

theorem exists_decode_read {recN : Nat} {w : Word} (hk : w.toNat / 2 ^ 14 = 0) (hd : w.toNat % 256 = 0)
    (hr : readAt recN (wordAddr w) ≠ none) : ∃ i, decode recN w = .ok i := by
  obtain ⟨i, hi⟩ := Option.ne_none_iff_exists'.1 hr
  have e := decode_rdWord recN (wordAddr w)
  rw [← eq_rdWord_of_kind_zero hk hd, hi] at e
  exact ⟨i, e⟩

theorem decode_of_readOnly {recN : Nat} {w : Word} (hk : w.toNat / 2 ^ 14 = 1)
    (hr : readAt recN (wordAddr w) ≠ none) (hw : writeAt recN (wordAddr w) (wordData w) = none) :
    decode recN w = .error (.readOnlyWrite w (wordAddr w)) := by
  obtain ⟨_, hi⟩ := Option.ne_none_iff_exists'.1 hr
  have e := decode_wrWord recN (wordAddr w) (wordData w)
  rwa [← eq_wrWord_of_kind_one hk, hi, hw] at e

theorem exists_decode_write {recN : Nat} {w : Word} (hk : w.toNat / 2 ^ 14 = 1)
    (hr : readAt recN (wordAddr w) ≠ none) (hw : writeAt recN (wordAddr w) (wordData w) ≠ none) :
    ∃ i, decode recN w = .ok i := by
  obtain ⟨_, hi⟩ := Option.ne_none_iff_exists'.1 hr
  obtain ⟨j, hj⟩ := Option.ne_none_iff_exists'.1 hw
  have e := decode_wrWord recN (wordAddr w) (wordData w)
  rw [← eq_wrWord_of_kind_one hk, hi, hj] at e
  exact ⟨j, e⟩

/-- Settles O3, clause by clause: the three kinds of reserved word, the register map's reserved and read-only rows, and
the operations of the three legal kinds. -/
theorem illegalWordsFaultInOrder : Obligations.IllegalWordsFaultInOrder := by
  intro recN w _ _ k a e illegal unmapped readOnly
  have hread := readAt_eq_none_iff recN (wordAddr w)
  have hwrite := writeAt_eq_none_iff recN (wordAddr w) (wordData w)
  rw [wordAddr_toNat] at hread hwrite
  rw [← wordAddr_eq_ofNat]
  have hmapped (hk : k < 2) (hu : ¬ unmapped) : readAt recN (wordAddr w) ≠ none := fun h => hu ⟨hk, hread.1 h⟩
  refine ⟨?_, ?_, ?_, ?_⟩
  · rintro (hk | ⟨hk, hd⟩ | ⟨hk, he⟩)
    · exact decode_of_kind_three hk recN
    · exact decode_read_with_data hk hd recN
    · exact (decode_of_kind_two hk recN).trans (decodeEvent_of_illegal he)
  · rintro hi ⟨hk, hu⟩
    exact decode_of_unmapped hk (by omega) (hread.2 hu)
  · rintro - hu ⟨hk, hr⟩
    exact decode_of_readOnly hk (hmapped (by omega) hu) (hwrite.2 (by omega))
  · intro hi hu hr
    have hk4 : k < 4 := Nat.div_lt_of_lt_mul w.isLt
    obtain hk | hk | hk : k = 0 ∨ k = 1 ∨ k = 2 := by omega
    · exact exists_decode_read hk (by omega) (hmapped (by omega) hu)
    · exact exists_decode_write hk (hmapped (by omega) hu) (mt hwrite.1 (by omega))
    · rw [decode_of_kind_two hk]
      exact exists_decodeEvent_of_legal (by omega)

end Sys2Proof
end

section
/-! PROOFS. Reads of a register at a fixed address (R71, R75, R203), and the reads of the debounce unit (R102 to R108). -/

namespace Sys2Proof

open Machine Safety

/-! ### The word of a read -/

/-- A read's word with other low bits is still of the read kind, and carries those bits. -/
theorem rdWord_or_fields (a : RegAddr) (d : Byte) :
    wordKind (rdWord a ||| d.setWidth 16) = 0b00 ∧ wordData (rdWord a ||| d.setWidth 16) = d := by
  simp only [wordKind, wordData, rdWord]
  refine ⟨?_, ?_⟩ <;> ext i hi <;> simp <;> grind

/-- A read's word with nonzero low bits is reserved (R71, R75). -/
theorem decode_rdWord_or_data (recN : Nat) (a : RegAddr) {d : Byte} (hd : d ≠ 0) :
    decode recN (rdWord a ||| d.setWidth 16) = .error (.illegalWord (rdWord a ||| d.setWidth 16)) := by
  obtain ⟨hkind, hdata⟩ := rdWord_or_fields a d
  refine decode_read_with_data ((wordKind_eq_iff _ _).1 hkind) ?_ recN
  rw [ne_eq, ← wordData_eq_zero_iff, hdata]
  exact hd

/-- The register at `a` reads as `value` where the register map has `i` there and `i` returns that byte. -/
theorem readsAs_of_readAt {a : RegAddr} {i : Instr} {value : State → Byte} (hrow : ∀ recN, readAt recN a = some i)
    (hexec : ∀ s, exec i s = .next (s.reply (value s))) : ReadsAs (rdWord a) i value := by
  refine ⟨fun recN => ⟨?_, fun d hd => decode_rdWord_or_data recN a hd⟩, hexec⟩
  rw [decode_rdWord, hrow]

/-- The register at `a` is read-only where the register map has it and has no write of it. -/
theorem readOnlyAt_of_writeAt {a : RegAddr} {i : Instr} (hrow : ∀ recN, readAt recN a = some i)
    (hwrite : ∀ recN d, writeAt recN a d = none) : ReadOnlyAt a := by
  intro recN d
  rw [decode_wrWord, hrow, hwrite]

/-! ### The bytes in arithmetic -/

/-- Byte lane `k` of the Tick Counter is byte `k` of its value (R53). -/
theorem tickLane_eq_ofNat (t : BitVec 32) (k : Nat) : tickLane t k = BitVec.ofNat 8 (t.toNat / 2 ^ (8 * k)) := by
  rw [← Nat.shiftRight_eq_div_pow]
  rfl

theorem pairByte_eq_ofNat (hi lo : Bool) : pairByte hi lo = BitVec.ofNat 8 (2 * hi.toNat + lo.toNat) := by
  revert hi lo; decide

/-- A register that returns lane `k` returns byte `k` of the Tick Counter's value. -/
theorem readsAs_tickLane {a : RegAddr} {i : Instr} (k : Nat) (hrow : ∀ recN, readAt recN a = some i)
    (hexec : ∀ s, exec i s = .next (s.reply (tickLane s.tick k))) :
    ReadsAs (rdWord a) i (fun s => BitVec.ofNat 8 (s.tick.toNat / 2 ^ (8 * k))) :=
  readsAs_of_readAt hrow fun s => (hexec s).trans (by rw [tickLane_eq_ofNat])

/-- A register that returns a Debounced Input's status returns `raw` in bit 1 and `stable` in bit 0 (R77). -/
theorem readsAs_statusByte {a : RegAddr} {i : Instr} (input : State → Deb) (hrow : ∀ recN, readAt recN a = some i)
    (hexec : ∀ s, exec i s = .next (s.reply (input s).statusByte)) :
    ReadsAs (rdWord a) i (fun s => BitVec.ofNat 8 (2 * (input s).raw.toNat + (input s).stable.toNat)) :=
  readsAs_of_readAt hrow fun s => (hexec s).trans (by rw [Deb.statusByte, pairByte_eq_ofNat])

/-- Settles O12: each of the four rows of the register map returns its lane. -/
theorem tickLanesReadLittleEndian : Obligations.TickLanesReadLittleEndian := by
  have hlane0 := readsAs_tickLane (a := 0x00) (i := .rdTick0) 0 (fun _ => rfl) (fun _ => rfl)
  simp only [Nat.mul_zero, Nat.pow_zero, Nat.div_one] at hlane0
  exact ⟨hlane0, readsAs_tickLane (a := 0x01) 1 (fun _ => rfl) (fun _ => rfl),
    readsAs_tickLane (a := 0x02) 2 (fun _ => rfl) (fun _ => rfl),
    readsAs_tickLane (a := 0x03) 3 (fun _ => rfl) (fun _ => rfl)⟩

/-- Settles O13: both rows of the register map return their input's status. -/
theorem inputStateReads : Obligations.InputStateReads :=
  ⟨readsAs_statusByte (a := 0x04) State.btn (fun _ => rfl) (fun _ => rfl),
    readsAs_statusByte (a := 0x05) State.off (fun _ => rfl) (fun _ => rfl)⟩

/-- Settles O14: the register map has a read at 0x06, and no write. -/
theorem polarityReadsAndIsReadOnly : Obligations.PolarityReadsAndIsReadOnly :=
  ⟨readsAs_of_readAt (a := 0x06) (fun _ => rfl) (fun _ => rfl),
    readOnlyAt_of_writeAt (fun _ => rfl) (fun _ _ => rfl)⟩

end Sys2Proof
end

section
/-! PROOFS. One TICK (R100, R101): its word, and its step where the hold is 0. -/

namespace Sys2Proof

open Machine Safety

/-- A TICK's word carries the button's level in bit 0 and the power-off signal's in bit 1 (R73, R74). -/
theorem decode_tickWord (recN : Nat) (b o : Bool) :
    decode recN (BitVec.ofNat 16 (0x8000 + 2 * o.toNat + b.toNat)) = .ok (.evTick b o) := by
  cases b <;> cases o <;> rfl

theorem exec_evTick_of_unheld {s : State} (h : s.evmask = false) (b o : Bool) :
    exec (.evTick b o) s = .next (s.tickStep b o) :=
  whenEnabled_of_enabled _ _ _ ((enabled_tick s).2 h)

theorem tickStep_tick (s : State) (b o : Bool) : (s.tickStep b o).tick = s.tick + 1 := rfl

/-- Settles O27: the step is `tickStep`, which takes one `debStep` of each input. -/
theorem tickCountsAndSamplesBothInputs : Obligations.TickCountsAndSamplesBothInputs := by
  rintro b o s hheld ⟨hbtn, hoff⟩ hT
  refine ⟨fun recN => decode_tickWord recN b o, s.tickStep b o, exec_evTick_of_unheld hheld b o, ?_, ?_, ?_, rfl⟩
  · rw [tickStep_tick, BitVec.toNat_add]
    rfl
  · exact debStep_rule _ _ _ hbtn hT
  · exact debStep_rule _ _ _ hoff hT

end Sys2Proof
end

section
/-! PROOFS. The Tick Counter over runs with no reads in them: what they return, how they count, and that they do not count
under the hold. Then the two tear-free reads of the counter (R109, R110, R246). -/

namespace Sys2Proof

open Machine Safety

/-! ### The operations of the two reads -/

@[simp] theorem exec_rdTick0 (s : State) : exec .rdTick0 s = .next (s.reply (tickLane s.tick 0)) := rfl
@[simp] theorem exec_rdTick1 (s : State) : exec .rdTick1 s = .next (s.reply (tickLane s.tick 1)) := rfl
@[simp] theorem exec_rdTick2 (s : State) : exec .rdTick2 s = .next (s.reply (tickLane s.tick 2)) := rfl
@[simp] theorem exec_rdTick3 (s : State) : exec .rdTick3 s = .next (s.reply (tickLane s.tick 3)) := rfl
@[simp] theorem exec_wrEvmask (d : Byte) (s : State) : exec (.wrEvmask d) s = .next (s.setEvmask (bitOperand d)) := rfl

theorem runAll_cons_of_next {i : Instr} {is : List Instr} {s u : State} (hf : s.fault = none)
    (hu : exec i s = .next u) : runAll (i :: is) s = runAll is u := by
  rw [runAll_cons _ _ _ hf, hu]

/-! ### Runs without reads -/

theorem exec_tick_add {i : Instr} {s t : State} (h : exec i s = .next t) :
    t.tick = s.tick + BitVec.ofNat 32 (if isTick i then 1 else 0) := by
  cases hi : isTick i with
  | true =>
    cases i with
    | evTick b o => rw [exec_evTick_next h]; rfl
    | _ => cases hi
  | false =>
    obtain ⟨-, hdebounce, -⟩ := everyFieldHasOneWriter i s t h
    obtain ⟨htick, -, -⟩ := hdebounce hi
    simpa using htick

theorem exec_outbox_of_not_read {i : Instr} {s t : State} (hi : i.isRead = false) (h : exec i s = .next t) :
    t.outbox = s.outbox := by
  obtain ⟨-, -, -, -, -, -, -, -, -, -, -, -, -, houtbox⟩ := everyFieldHasOneWriter i s t h
  exact houtbox hi

theorem exec_evmask_of_not_wrEvmask {i : Instr} {s t : State} (hi : isWrEvmask i = false) (h : exec i s = .next t) :
    t.evmask = s.evmask := by
  obtain ⟨-, -, -, -, -, -, -, -, hevmask, -⟩ := everyFieldHasOneWriter i s t h
  exact hevmask hi

/-- Under the hold no operation that has a step is a TICK (R216). -/
theorem isTick_eq_false_of_held {i : Instr} {s t : State} (hs : s.evmask = true) (h : exec i s = .next t) :
    isTick i = false := by
  cases i with
  | evTick b o =>
    obtain ⟨henabled, -⟩ := (whenEnabled_eq_next ..).1 h
    rw [(enabled_tick s).1 henabled] at hs
    cases hs
  | _ => rfl

/-- A run adds to the Tick Counter the number of TICKs in it. -/
theorem runAll_tick_add {is : List Instr} {s t : State} (h : runAll is s = .next t) :
    t.tick = s.tick + BitVec.ofNat 32 (is.countP isTick) := by
  induction is generalizing s with
  | nil => cases h; simp
  | cons i is ih =>
    obtain ⟨-, u, hu, hr⟩ := runAll_cons_next h
    rw [ih hr, exec_tick_add hu, List.countP_cons, Nat.add_comm, BitVec.ofNat_add, BitVec.add_assoc]

theorem runAll_outbox_of_no_reads {is : List Instr} {s t : State} (his : ∀ i ∈ is, i.isRead = false)
    (h : runAll is s = .next t) : t.outbox = s.outbox := by
  induction is generalizing s with
  | nil => cases h; rfl
  | cons i is ih =>
    obtain ⟨hi, his⟩ := List.forall_mem_cons.1 his
    obtain ⟨-, u, hu, hr⟩ := runAll_cons_next h
    rw [ih his hr, exec_outbox_of_not_read hi hu]

/-- A run that leaves the hold set leaves the Tick Counter alone. -/
theorem runAll_held {is : List Instr} {s t : State} (hs : s.evmask = true) (his : ∀ i ∈ is, isWrEvmask i = false)
    (h : runAll is s = .next t) : t.evmask = true ∧ t.tick = s.tick := by
  induction is generalizing s with
  | nil => cases h; exact ⟨hs, rfl⟩
  | cons i is ih =>
    obtain ⟨hi, his⟩ := List.forall_mem_cons.1 his
    obtain ⟨-, u, hu, hr⟩ := runAll_cons_next h
    obtain ⟨hevmask, htick⟩ := ih ((exec_evmask_of_not_wrEvmask hi hu).trans hs) his hr
    have hstep := exec_tick_add hu
    rw [isTick_eq_false_of_held hs hu] at hstep
    exact ⟨hevmask, htick.trans (by simpa using hstep)⟩

/-! ### Runs up to the next read of a lane -/

section
variable {xs rest : List Instr} {i : Instr} {k : Nat} {s t : State}

/-- A run without reads, then the read of lane `k`: the counter has counted the TICKs before the read, and the byte
returned is a lane of what it holds at the read. -/
theorem runAll_lane_next (hi : ∀ u, exec i u = .next (u.reply (tickLane u.tick k))) (hxs : ∀ x ∈ xs, x.isRead = false)
    (h : runAll (xs ++ i :: rest) s = .next t) :
    ∃ u, runAll rest u = .next t ∧ u.tick = s.tick + BitVec.ofNat 32 (xs.countP isTick) ∧
      u.outbox = s.outbox ++ [tickLane u.tick k] := by
  obtain ⟨u, hu, h⟩ := runAll_append_next h
  obtain ⟨-, v, hv, h⟩ := runAll_cons_next h
  cases (hi u).symm.trans hv
  have htick := runAll_tick_add hu
  refine ⟨_, h, htick, ?_⟩
  simp [runAll_outbox_of_no_reads hxs hu]

/-- The same under the hold: the counter is as it was. -/
theorem runAll_lane_next_of_held (hi : ∀ u, exec i u = .next (u.reply (tickLane u.tick k))) (hs : s.evmask = true)
    (hxs : ∀ x ∈ xs, x.isRead = false ∧ isWrEvmask x = false) (h : runAll (xs ++ i :: rest) s = .next t) :
    ∃ u, runAll rest u = .next t ∧ u.evmask = true ∧ u.tick = s.tick ∧
      u.outbox = s.outbox ++ [tickLane s.tick k] := by
  obtain ⟨u, hu, h⟩ := runAll_append_next h
  obtain ⟨-, v, hv, h⟩ := runAll_cons_next h
  cases (hi u).symm.trans hv
  obtain ⟨hevmask, htick⟩ := runAll_held hs (fun x hx => (hxs x hx).2) hu
  refine ⟨_, h, hevmask, htick, ?_⟩
  simp [runAll_outbox_of_no_reads (fun x hx => (hxs x hx).1) hu, htick]

end

/-! ### The lanes of the counter -/

/-- The four lanes make up the counter (R53). -/
theorem tickOfLanes_tickLane (t : BitVec 32) :
    tickOfLanes (tickLane t 0) (tickLane t 1) (tickLane t 2) (tickLane t 3) = t := by
  ext i hi
  simp only [tickOfLanes, tickLane]
  grind

/-- Fewer than 256 TICKs, but at least one, change the lowest lane: it counts modulo 256. -/
theorem eq_zero_of_tickLane_zero_add_eq {t : BitVec 32} {n : Nat} (hn : n < 256)
    (h : tickLane t 0 = tickLane (t + BitVec.ofNat 32 n) 0) : n = 0 := by
  simp only [tickLane_eq_ofNat, ← BitVec.toNat_inj, BitVec.toNat_ofNat, BitVec.toNat_add, Nat.mul_zero, Nat.pow_zero,
    Nat.div_one] at h
  omega

/-! ### The critical-section read -/

/-- The six operations run one after another in every state without a fault. -/
theorem runAll_readTickCs {s : State} (hf : s.fault = none) :
    runAll Pseudo.readTickCs.expand s =
      .next { s with
        outbox := s.outbox ++ [tickLane s.tick 0, tickLane s.tick 1, tickLane s.tick 2, tickLane s.tick 3]
        evmask := false } := by
  simp [Pseudo.expand, readLanes, runAll_cons, runAll_nil, hf, State.reply, State.setEvmask, bitOperand]

/-- Settles O53: under the hold the four lanes are lanes of one value, the counter's. -/
theorem criticalSectionReadReturnsCounter : Obligations.CriticalSectionReadReturnsCounter := by
  refine ⟨fun s hf => ⟨_, _, _, _, runAll_readTickCs hf, tickOfLanes_tickLane s.tick⟩, ?_⟩
  intro xs0 xs1 xs2 xs3 xs4 s t hxs h
  simp only [List.forall_mem_append] at hxs
  obtain ⟨⟨⟨⟨hxs0, hxs1⟩, hxs2⟩, hxs3⟩, hxs4⟩ := hxs
  simp only [List.cons_append, List.append_assoc] at h
  obtain ⟨-, s', hs', h⟩ := runAll_cons_next h
  cases hs'
  obtain ⟨u0, h, hheld0, htick0, hout0⟩ := runAll_lane_next_of_held exec_rdTick0 rfl hxs0 h
  obtain ⟨u1, h, hheld1, htick1, hout1⟩ := runAll_lane_next_of_held exec_rdTick1 hheld0 hxs1 h
  obtain ⟨u2, h, hheld2, htick2, hout2⟩ := runAll_lane_next_of_held exec_rdTick2 hheld1 hxs2 h
  obtain ⟨u3, h, hheld3, htick3, hout3⟩ := runAll_lane_next_of_held exec_rdTick3 hheld2 hxs3 h
  obtain ⟨u4, hu4, h⟩ := runAll_append_next h
  obtain ⟨-, htick4⟩ := runAll_held hheld3 (fun x hx => (hxs4 x hx).2) hu4
  have hout4 := runAll_outbox_of_no_reads (fun x hx => (hxs4 x hx).1) hu4
  obtain ⟨-, _, ht, h⟩ := runAll_cons_next h
  cases ht
  cases h
  refine ⟨?_, rfl, _, _, _, _, ?_, tickOfLanes_tickLane s.tick⟩
  · simp [htick4, htick3, htick2, htick1, htick0]
  · simp [hout4, hout3, hout2, hout1, hout0, htick2, htick1, htick0]

/-! ### The double read -/

/-- TICKs run one after another where the hold is 0. -/
theorem exists_runAll_ticks (pins : List (Bool × Bool)) {s : State} (hf : s.fault = none) (hs : s.evmask = false) :
    ∃ t, runAll (ticks pins) s = .next t ∧ t.fault = none := by
  induction pins generalizing s with
  | nil => exact ⟨s, rfl, hf⟩
  | cons p pins ih =>
    obtain ⟨t, ht, hft⟩ := ih (s := s.tickStep p.1 p.2) hf hs
    refine ⟨t, ?_, hft⟩
    rw [ticks, List.map_cons, runAll_cons_of_next hf (exec_evTick_of_unheld hs p.1 p.2)]
    exact ht

theorem countP_isTick_ticks (pins : List (Bool × Bool)) : (ticks pins).countP isTick = pins.length := by
  rw [ticks, List.countP_map]
  exact List.countP_eq_length.2 fun _ _ => rfl

theorem isRead_of_mem_ticks {pins : List (Bool × Bool)} {i : Instr} (h : i ∈ ticks pins) : i.isRead = false := by
  obtain ⟨p, -, rfl⟩ := List.mem_map.1 h
  rfl

/-- Where both reads of the lowest lane agree, no TICK came between them, so all lanes are lanes of one value (R109). -/
theorem doubleRead_retries_or_returns_tick {xs1 xs2 xs3 xs4 : List Instr} {s t : State}
    (hxs : ∀ i ∈ xs1 ++ xs2 ++ xs3 ++ xs4, i.isRead = false)
    (hcount : (xs1 ++ xs2 ++ xs3 ++ xs4).countP isTick < 256)
    (h : runAll (.rdTick0 :: xs1 ++ .rdTick1 :: xs2 ++ .rdTick2 :: xs3 ++ .rdTick3 :: xs4 ++ [.rdTick0]) s = .next t) :
    ∃ l1 h1 h2 h3 l2, t.outbox = s.outbox ++ [l1, h1, h2, h3, l2] ∧
      ∀ v, readTickResult l1 h1 h2 h3 l2 = some v →
        v = s.tick ∧ t.tick = s.tick ∧ (xs1 ++ xs2 ++ xs3 ++ xs4).countP isTick = 0 := by
  simp only [List.forall_mem_append] at hxs
  obtain ⟨⟨⟨hxs1, hxs2⟩, hxs3⟩, hxs4⟩ := hxs
  simp only [List.cons_append, List.append_assoc] at h
  simp only [List.countP_append] at hcount ⊢
  obtain ⟨-, s', hs', h⟩ := runAll_cons_next h
  cases hs'
  obtain ⟨u1, h, htick1, hout1⟩ := runAll_lane_next exec_rdTick1 hxs1 h
  rw [State.reply_tick] at htick1
  obtain ⟨u2, h, htick2, hout2⟩ := runAll_lane_next exec_rdTick2 hxs2 h
  obtain ⟨u3, h, htick3, hout3⟩ := runAll_lane_next exec_rdTick3 hxs3 h
  obtain ⟨u4, h, htick4, hout4⟩ := runAll_lane_next exec_rdTick0 hxs4 h
  cases h
  refine ⟨tickLane s.tick 0, tickLane u1.tick 1, tickLane u2.tick 2, tickLane u3.tick 3, tickLane t.tick 0,
    by simp [hout4, hout3, hout2, hout1], fun v hv => ?_⟩
  obtain ⟨hlow, hv⟩ := Option.ite_none_right_eq_some.1 hv
  have htotal : t.tick = s.tick + BitVec.ofNat 32 (xs1.countP isTick + xs2.countP isTick + xs3.countP isTick +
      xs4.countP isTick) := by
    simp only [htick4, htick3, htick2, htick1, BitVec.ofNat_add, BitVec.add_assoc]
  rw [htotal] at hlow
  have hzero := eq_zero_of_tickLane_zero_add_eq hcount hlow
  obtain ⟨⟨⟨hzero1, hzero2⟩, hzero3⟩, -⟩ : ((_ ∧ _) ∧ _) ∧ _ := by simpa only [Nat.add_eq_zero_iff] using hzero
  have hsame1 : u1.tick = s.tick := by simpa [hzero1] using htick1
  have hsame2 : u2.tick = s.tick := by simpa [hzero2, hsame1] using htick2
  have hsame3 : u3.tick = s.tick := by simpa [hzero3, hsame2] using htick3
  cases hv
  rw [hsame1, hsame2, hsame3]
  exact ⟨tickOfLanes_tickLane s.tick, by simpa [hzero] using htotal, hzero⟩

/-- A state from which the double read is torn by 256 TICKs between lanes 1 and 2: they carry into lane 2 and leave lane 0
as it was. -/
def beforeTornRead : State := { State.reset with tick := 0x0000FF00 }

/-- From the counter 0x0000FF00 the torn read returns 0x0001FF00, and the counter ends at 0x00010000 (R246). -/
theorem doubleRead_torn_by_256_ticks :
    ∃ t, runAll (.rdTick0 :: .rdTick1 :: ticks (List.replicate 256 (false, false)) ++ [.rdTick2, .rdTick3, .rdTick0])
        beforeTornRead = .next t ∧
      t.outbox = beforeTornRead.outbox ++ [0x00, 0xFF, 0x01, 0x00, 0x00] ∧ t.tick = 0x00010000 := by
  obtain ⟨u, hu, hfu⟩ := exists_runAll_ticks (List.replicate 256 (false, false))
    (s := (beforeTornRead.reply 0x00).reply 0xFF) rfl rfl
  have htick : u.tick = 0x00010000 := by
    rw [runAll_tick_add hu, countP_isTick_ticks, List.length_replicate]
    rfl
  have hout : u.outbox = [0x00, 0xFF] := runAll_outbox_of_no_reads (fun _ => isRead_of_mem_ticks) hu
  refine ⟨((u.reply (tickLane u.tick 2)).reply (tickLane u.tick 3)).reply (tickLane u.tick 0), ?_, ?_, htick⟩
  · rw [List.cons_append, List.cons_append, runAll_cons_of_next rfl (exec_rdTick0 _),
      runAll_cons_of_next rfl (exec_rdTick1 _)]
    refine (runAll_append _ hu).trans ?_
    simp [runAll_cons, runAll_nil, hfu, State.reply]
  · simp only [State.reply_outbox, hout, htick]
    rfl

/-- Settles O54: with fewer than 256 TICKs equal low bytes rule out any, and 256 tear the read from 0x0000FF00. -/
theorem doubleReadIsNeverTorn : Obligations.DoubleReadIsNeverTorn := by
  refine ⟨fun _ _ _ _ _ _ hxs hcount h => doubleRead_retries_or_returns_tick hxs hcount h, ?_⟩
  obtain ⟨t, hrun, hout, htick⟩ := doubleRead_torn_by_256_ticks
  refine ⟨beforeTornRead, t, 0x00, 0xFF, 0x01, 0x00, 0x00, 0x0001FF00, hrun, hout, rfl, ?_, ?_⟩
  · decide
  · rw [htick]
    decide

end Sys2Proof
end

section
/-! PROOFS. One PWM event (R130 to R132, R148): its duties, its waveform step, and what it leaves alone. -/

namespace Sys2Proof.Machine

open Sys2Proof.Safety

theorem exec_evPwm_of_unheld {s : State} (h : s.evmask = false) : exec .evPwm s = .next s.pwmStep :=
  whenEnabled_of_enabled _ _ _ ((enabled_pwm s).2 h)

/-- Every channel's duty comes from its own mode, at one level. -/
theorem dutiesOf_get (modes : Rgb LedMode) (l : Byte) (c : Channel) :
    (dutiesOf modes l).get c = dutyOf (modes.get c) l := by
  cases c <;> rfl

@[simp] theorem State.pwmStep_duty (s : State) : s.pwmStep.duty = dutiesOf s.ledMode s.level := by
  rw [pwmStep_frame]; rfl

@[simp] theorem State.pwmStep_flashDiv (s : State) : s.pwmStep.flashDiv = s.flashDiv := by
  rw [pwmStep_frame]; rfl

@[simp] theorem State.pwmStep_evmask (s : State) : s.pwmStep.evmask = s.evmask := by
  rw [pwmStep_frame]; rfl

@[simp] theorem State.pwmStep_fault (s : State) : s.pwmStep.fault = s.fault := by
  rw [pwmStep_frame]; rfl

theorem pwmStep_dutyRule (s : State) (c : Channel) :
    DutyRule (s.ledMode.get c) s.level (s.pwmStep.duty.get c) := by
  rw [State.pwmStep_duty, dutiesOf_get]
  exact dutyOf_rule _ _

/-- The direction at the two turning points and between them (R132). -/
theorem turn_rule (l : Byte) (up : Bool) :
    (l.toNat = 0 → turn l up = true) ∧ (l.toNat = 255 → turn l up = false) ∧
      (0 < l.toNat → l.toNat < 255 → turn l up = up) := by
  simp only [turn, ← BitVec.toNat_inj, BitVec.reduceToNat]
  refine ⟨fun h => if_pos h, fun h => ?_, fun hlo hhi => ?_⟩
  · rw [if_neg (by omega), if_pos h]
  · rw [if_neg (by omega), if_neg (by omega)]

/-- From a state of its invariant the waveform makes R132's step. -/
theorem pwmStep_waveRule {s : State} (h : WaveInv s) : WaveRule s s.pwmStep := by
  obtain ⟨hup, hdown⟩ := h
  by_cases hsub : s.sub = 1
  · rw [pwmStep_of_sub_one s hsub]
    refine ⟨fun _ => ⟨rfl, fun hd => ?_, fun hd => ?_, turn_rule _ _⟩, fun hne => absurd (congrArg _ hsub) hne⟩
    · simpa only [State.setWave_level, hd] using nextLevel_up _ (hup hd)
    · simpa only [State.setWave_level, hd] using nextLevel_down _ (hdown hd)
  · rw [pwmStep_of_sub_ne_one s hsub]
    refine ⟨fun hone => absurd (BitVec.eq_of_toNat_eq hone) hsub, fun _ => ⟨?_, rfl, rfl⟩⟩
    rw [State.setWave_sub, BitVec.toNat_sub, Nat.add_comm]
    rfl

end Sys2Proof.Machine

namespace Sys2Proof

open Machine Safety

/-- Settles O28: the step is `pwmStep`, whose duties and waveform step follow the unit's rules. -/
theorem pwmDerivesDutiesThenStepsWave : Obligations.PwmDerivesDutiesThenStepsWave := by
  refine ⟨fun _ => rfl, fun s hheld hinv => ?_⟩
  refine ⟨s.pwmStep, exec_evPwm_of_unheld hheld, pwmStep_dutyRule s, pwmStep_waveRule hinv, ?_⟩
  rw [pwmStep_frame]
  rfl

/-- Settles O29: every channel's duty follows R131 at the one level the event began with. -/
theorem flashingChannelsAreSynchronised : Obligations.FlashingChannelsAreSynchronised := by
  intro s t h c c'
  obtain rfl := exec_evPwm_next h
  obtain ⟨hoff, hon, hflash, -⟩ := pwmStep_dutyRule s c
  obtain ⟨-, -, hflash', hinverted'⟩ := pwmStep_dutyRule s c'
  refine ⟨fun hm hm' => ?_, fun hm hm' => ?_, hoff, hon⟩
  · exact BitVec.eq_of_toNat_eq ((hflash hm).trans (hflash' hm').symm)
  · rw [hinverted' hm', hflash hm]

end Sys2Proof
end

section
/-! PROOFS. The LED unit's registers: reads (R133 to R135, R139, R141 to R146), and the mode writes (R136 to R138). -/

namespace Sys2Proof

open Machine Safety

/-! ### The word of a write -/

/-- A write's word in arithmetic on its fields (R72, R90). -/
theorem wrWord_eq_ofNat (a : RegAddr) (d : Byte) :
    wrWord a d = BitVec.ofNat 16 (0x4000 + 256 * a.toNat + d.toNat) := by
  have ha := a.isLt
  have hd := d.isLt
  apply BitVec.eq_of_toNat_eq
  rw [wrWord, BitVec.toNat_append, BitVec.toNat_append, ← Nat.shiftLeft_add_eq_or_of_lt ha,
    ← Nat.shiftLeft_add_eq_or_of_lt hd]
  simp only [BitVec.toNat_ofNat, Nat.shiftLeft_eq]
  omega

/-- The register at `a` is written by `i` where the register map has `i` there. -/
theorem writesAs_of_writeAt {a : RegAddr} {r : Instr} {i : Byte → Instr} (hrow : ∀ recN, readAt recN a = some r)
    (hwrite : ∀ recN d, writeAt recN a d = some (i d)) : WritesAs (0x4000 + 256 * a.toNat) i := by
  intro recN d
  rw [← wrWord_eq_ofNat, decode_wrWord, hrow, hwrite]

/-! ### The bytes in arithmetic -/

theorem modeByte_eq_ofNat (m : LedMode) : modeByte m = BitVec.ofNat 8 m.toNat :=
  (BitVec.ofNat_toNat 8 m).symm

theorem bitByte_eq_ofNat (b : Bool) : bitByte b = BitVec.ofNat 8 b.toNat := by
  cases b <;> rfl

/-- A mode write takes the byte modulo 4 (R78). -/
theorem modeOperand_eq_ofNat (d : Byte) : modeOperand d = BitVec.ofNat 2 (d.toNat % 4) := by
  apply BitVec.eq_of_toNat_eq
  rw [modeOperand, BitVec.extractLsb'_toNat, Nat.shiftRight_zero, BitVec.toNat_ofNat, Nat.mod_mod]

/-- The mode taken from a byte reads back as the byte modulo 4. -/
theorem modeByte_modeOperand (d : Byte) : modeByte (modeOperand d) = BitVec.ofNat 8 (d.toNat % 4) := by
  rw [modeByte_eq_ofNat, modeOperand_eq_ofNat, BitVec.toNat_ofNat, Nat.mod_mod]

/-- A register that returns a mode returns it zero-extended (R78). -/
theorem readsAs_modeByte {a : RegAddr} {i : Instr} (mode : State → LedMode) (hrow : ∀ recN, readAt recN a = some i)
    (hexec : ∀ s, exec i s = .next (s.reply (modeByte (mode s)))) :
    ReadsAs (rdWord a) i (fun s => BitVec.ofNat 8 (mode s).toNat) :=
  readsAs_of_readAt hrow fun s => (hexec s).trans (by rw [modeByte_eq_ofNat])

/-- A read-only register of the register map: its read returns `value`, and it has no write (R76). -/
theorem readsAs_and_readOnlyAt {a : RegAddr} {i : Instr} {value : State → Byte}
    (hrow : ∀ recN, readAt recN a = some i) (hwrite : ∀ recN d, writeAt recN a d = none)
    (hexec : ∀ s, exec i s = .next (s.reply (value s))) : ReadsAs (rdWord a) i value ∧ ReadOnlyAt a :=
  ⟨readsAs_of_readAt hrow hexec, readOnlyAt_of_writeAt hrow hwrite⟩

/-- At a turning level the waveform's direction is away from the end (R32). -/
theorem dirUp_of_turning_level {s : State} (h : WaveInv s) :
    (s.level.toNat = 0 → s.dirUp.toNat = 1) ∧ (s.level.toNat = 255 → s.dirUp.toNat = 0) := by
  obtain ⟨hup, hdown⟩ := h
  cases hd : s.dirUp with
  | true => exact ⟨fun _ => rfl, fun hl => absurd hl (Nat.ne_of_lt (hup hd))⟩
  | false => exact ⟨fun hl => absurd hl (Nat.ne_of_gt (hdown hd)), fun _ => rfl⟩

/-- Settles O15: three rows of the register map return a mode, and a mode write takes the byte modulo 4. -/
theorem ledModeReads : Obligations.LedModeReads := by
  refine ⟨readsAs_modeByte (a := 0x08) (fun s => s.ledMode.r) (fun _ => rfl) (fun _ => rfl),
    readsAs_modeByte (a := 0x09) (fun s => s.ledMode.g) (fun _ => rfl) (fun _ => rfl),
    readsAs_modeByte (a := 0x0A) (fun s => s.ledMode.b) (fun _ => rfl) (fun _ => rfl), ?_⟩
  intro d s t u
  rw [← modeByte_modeOperand]
  refine ⟨?_, ?_, ?_⟩ <;> (rintro ⟨⟩ ⟨⟩; rfl)

/-- Settles O16: the rows of the register map at 0x0B to 0x11, all but the first without a write. -/
theorem dutyAndWaveformReads : Obligations.DutyAndWaveformReads :=
  ⟨readsAs_of_readAt (a := 0x0B) (fun _ => rfl) (fun _ => rfl),
    readsAs_and_readOnlyAt (a := 0x0C) (fun _ => rfl) (fun _ _ => rfl) (fun _ => rfl),
    readsAs_and_readOnlyAt (a := 0x0D) (fun _ => rfl) (fun _ _ => rfl) (fun _ => rfl),
    readsAs_and_readOnlyAt (a := 0x0E) (fun _ => rfl) (fun _ _ => rfl) (fun _ => rfl),
    readsAs_and_readOnlyAt (a := 0x0F) (fun _ => rfl) (fun _ _ => rfl) (fun _ => rfl),
    readsAs_and_readOnlyAt (a := 0x10) (fun _ => rfl) (fun _ _ => rfl) (fun s => by rw [← bitByte_eq_ofNat]; rfl),
    readsAs_and_readOnlyAt (a := 0x11) (fun _ => rfl) (fun _ _ => rfl) (fun _ => rfl),
    fun _ h => dirUp_of_turning_level h⟩

/-- Settles O20: three rows of the register map write a mode, and the next event's duty follows R131 with that mode. -/
theorem ledModeWritesTakeLowBits : Obligations.LedModeWritesTakeLowBits := by
  refine ⟨writesAs_of_writeAt (a := 0x08) (fun _ => rfl) (fun _ _ => rfl),
    writesAs_of_writeAt (a := 0x09) (fun _ => rfl) (fun _ _ => rfl),
    writesAs_of_writeAt (a := 0x0A) (fun _ => rfl) (fun _ _ => rfl), ?_⟩
  intro d s
  rw [← modeOperand_eq_ofNat]
  refine ⟨rfl, rfl, rfl, fun t u h => ?_⟩
  obtain rfl := exec_evPwm_next h
  have hduty := pwmStep_dutyRule t
  refine ⟨?_, ?_, ?_⟩
  · rintro ⟨⟩; exact hduty .r
  · rintro ⟨⟩; exact hduty .g
  · rintro ⟨⟩; exact hduty .b

end Sys2Proof
end

section
/-! PROOFS. Runs of PWM events: one interval of the sub-tick (R132, R149, R248), then the intervals of a full period of the
waveform (R147). -/

namespace Sys2Proof.Machine

open Sys2Proof.Safety

/-! ### A run of PWM events is the iterated step -/

/-- A run of PWM events changes the duties and the waveform only. -/
theorem pwmStep_iterate_frame (n : Nat) (s : State) :
    ∃ duty level dirUp sub, State.pwmStep^[n] s = { s with duty, level, dirUp, sub } := by
  induction n generalizing s with
  | zero => exact ⟨s.duty, s.level, s.dirUp, s.sub, rfl⟩
  | succ n ih =>
    obtain ⟨duty, level, dirUp, sub, e⟩ := ih s.pwmStep
    refine ⟨duty, level, dirUp, sub, ?_⟩
    rw [Function.iterate_succ_apply, e, pwmStep_frame]
    rfl

theorem pwmStep_iterate_flashDiv (n : Nat) (s : State) : (State.pwmStep^[n] s).flashDiv = s.flashDiv := by
  obtain ⟨_, _, _, _, e⟩ := pwmStep_iterate_frame n s
  rw [e]

/-- PWM events run one after another where the hold is 0. -/
theorem runAll_pwms {s : State} (hf : s.fault = none) (hs : s.evmask = false) (n : Nat) :
    runAll (pwms n) s = .next (State.pwmStep^[n] s) := by
  induction n generalizing s with
  | zero => rfl
  | succ n ih =>
    rw [pwms, List.replicate_succ, runAll_cons_of_next hf (exec_evPwm_of_unheld hs), Function.iterate_succ_apply]
    exact ih (by rwa [State.pwmStep_fault]) (by rwa [State.pwmStep_evmask])

/-! ### One interval -/

theorem interval_eq_one_iff (d : Byte) : interval d = 1 ↔ d = 1 := by
  have hd := d.isLt
  simp only [interval, ← BitVec.toNat_inj, BitVec.reduceToNat]
  split <;> omega

theorem interval_pos (d : Byte) : 0 < interval d := by
  rw [interval]
  split <;> omega

/-- Counting the sub-tick down, from 0 to 255 too, shortens what is left of its interval by one event. -/
theorem interval_sub_one {d : Byte} (h : d ≠ 1) : interval (d - 1) + 1 = interval d := by
  have hd := d.isLt
  simp only [ne_eq, ← BitVec.toNat_inj, BitVec.reduceToNat] at h
  have hsub : (d - 1).toNat = (d.toNat + 255) % 256 := by bv_omega
  rw [interval, interval, hsub]
  split <;> split <;> omega

/-- Before the running interval ends the waveform keeps still, and the interval gets shorter by one at each event. -/
theorem pwmStep_iterate_within_interval {n : Nat} {s : State} (h : n < interval s.sub) :
    (State.pwmStep^[n] s).level = s.level ∧ (State.pwmStep^[n] s).dirUp = s.dirUp ∧
      interval (State.pwmStep^[n] s).sub + n = interval s.sub := by
  induction n generalizing s with
  | zero => exact ⟨rfl, rfl, rfl⟩
  | succ n ih =>
    have hsub : s.sub ≠ 1 := fun e => by rw [(interval_eq_one_iff _).2 e] at h; omega
    have hshorter := interval_sub_one hsub
    rw [Function.iterate_succ_apply, pwmStep_of_sub_ne_one s hsub]
    obtain ⟨hlevel, hdir, hleft⟩ :=
      ih (s := (s.setDuty (dutiesOf s.ledMode s.level)).setWave s.level s.dirUp (s.sub - 1))
        (by rw [State.setWave_sub]; omega)
    rw [State.setWave_sub] at hleft
    exact ⟨hlevel, hdir, by omega⟩

/-- The event that ends the running interval steps the waveform and reloads the sub-tick from the divisor. -/
theorem pwmStep_iterate_interval (s : State) :
    (State.pwmStep^[interval s.sub] s).level = nextLevel s.level s.dirUp ∧
      (State.pwmStep^[interval s.sub] s).dirUp = turn (nextLevel s.level s.dirUp) s.dirUp ∧
      (State.pwmStep^[interval s.sub] s).sub = s.flashDiv := by
  obtain ⟨n, hn⟩ := Nat.exists_eq_add_one.2 (interval_pos s.sub)
  obtain ⟨hlevel, hdir, hleft⟩ := pwmStep_iterate_within_interval (n := n) (s := s) (by omega)
  have hsub := (interval_eq_one_iff (State.pwmStep^[n] s).sub).1 (by omega)
  rw [hn, Function.iterate_succ_apply', pwmStep_of_sub_one _ hsub, hlevel, hdir, pwmStep_iterate_flashDiv]
  exact ⟨rfl, rfl, rfl⟩

theorem nextLevel_ne (l : Byte) (up : Bool) : nextLevel l up ≠ l := by
  rw [nextLevel]
  split <;> bv_omega

/-! ### The intervals of a period -/

/-- The waveform is at level `l` in direction `up`, just after a reload. -/
abbrev JustReloaded (s : State) (l : Nat) (up : Bool) : Prop :=
  s.level.toNat = l ∧ s.sub = s.flashDiv ∧ s.dirUp = up

theorem turn_up (l : Byte) : turn l true = decide (l.toNat < 255) := by
  revert l; decide

theorem turn_down (l : Byte) : turn l false = decide (l.toNat = 0) := by
  revert l; decide

/-- One interval upwards, turning at 255. -/
theorem JustReloaded.rise {s : State} {l : Nat} (h : JustReloaded s l true) (hl : l < 255) :
    JustReloaded (State.pwmStep^[interval s.flashDiv] s) (l + 1) (decide (l + 1 < 255)) := by
  obtain ⟨rfl, hsub, hup⟩ := h
  obtain ⟨hlevel, hdir, hreload⟩ := pwmStep_iterate_interval s
  rw [hup] at hlevel hdir
  rw [JustReloaded, ← hsub, hlevel, hdir, hreload, pwmStep_iterate_flashDiv, turn_up, nextLevel_up _ hl]
  exact ⟨rfl, rfl, rfl⟩

/-- One interval downwards, turning at 0. -/
theorem JustReloaded.fall {s : State} {l : Nat} (h : JustReloaded s (l + 1) false) :
    JustReloaded (State.pwmStep^[interval s.flashDiv] s) l (decide (l = 0)) := by
  obtain ⟨hl, hsub, hdown⟩ := h
  obtain ⟨hlevel, hdir, hreload⟩ := pwmStep_iterate_interval s
  rw [hdown] at hlevel hdir
  have hnext : (nextLevel s.level false).toNat = l := by
    have := nextLevel_down s.level (by omega)
    omega
  rw [JustReloaded, ← hsub, hlevel, hdir, hreload, pwmStep_iterate_flashDiv, turn_down, hnext]
  exact ⟨rfl, rfl, rfl⟩

/-- `k + 1` intervals are one interval after `k`. -/
theorem pwmStep_iterate_succ_intervals (k : Nat) (s : State) :
    State.pwmStep^[(k + 1) * interval s.flashDiv] s =
      State.pwmStep^[interval (State.pwmStep^[k * interval s.flashDiv] s).flashDiv]
        (State.pwmStep^[k * interval s.flashDiv] s) := by
  rw [pwmStep_iterate_flashDiv, Nat.add_mul, Nat.one_mul, Nat.add_comm, Function.iterate_add_apply]

/-- From level 0 upwards, `k` intervals reach level `k`. -/
theorem JustReloaded.climb {s : State} (h : JustReloaded s 0 true) {k : Nat} (hk : k ≤ 255) :
    JustReloaded (State.pwmStep^[k * interval s.flashDiv] s) k (decide (k < 255)) := by
  induction k with
  | zero => simpa using h
  | succ k ih =>
    have hprev := ih (by omega)
    rw [decide_eq_true (by omega : k < 255)] at hprev
    rw [pwmStep_iterate_succ_intervals]
    exact hprev.rise (by omega)

/-- From level 255 downwards, `k` intervals reach level `255 - k`. -/
theorem JustReloaded.descend {s : State} (h : JustReloaded s 255 false) {k : Nat} (hk : k ≤ 255) :
    JustReloaded (State.pwmStep^[k * interval s.flashDiv] s) (255 - k) (decide (k = 255)) := by
  induction k with
  | zero => simpa using h
  | succ k ih =>
    have hprev := ih (by omega)
    rw [decide_eq_false (by omega : ¬ k = 255), (by omega : 255 - k = 255 - (k + 1) + 1)] at hprev
    rw [pwmStep_iterate_succ_intervals, (by simp only [decide_eq_decide]; omega :
      decide (k + 1 = 255) = decide (255 - (k + 1) = 0))]
    exact hprev.fall

/-- From level 0 upwards, `k` intervals after the turn at 255 the level is `255 - k`. -/
theorem JustReloaded.climb_descend {s : State} (h : JustReloaded s 0 true) {k : Nat} (hk : k ≤ 255) :
    JustReloaded (State.pwmStep^[(255 + k) * interval s.flashDiv] s) (255 - k) (decide (k = 255)) := by
  have htop := (h.climb (Nat.le_refl 255)).descend hk
  rwa [pwmStep_iterate_flashDiv, ← Function.iterate_add_apply, ← Nat.add_mul, Nat.add_comm k] at htop

end Sys2Proof.Machine

namespace Sys2Proof

open Machine Safety

/-- Settles O55: the sub-tick starts at the divisor, so the running interval is the divisor's. -/
theorem waveformStepsOncePerInterval : Obligations.WaveformStepsOncePerInterval := by
  intro s hf hs hinv hsub
  obtain ⟨hup, hdown⟩ := hinv
  rw [← hsub]
  refine ⟨fun n hn => ?_, fun hzero => ⟨if_pos hzero, s.pwmStep, exec_evPwm_of_unheld hs, ?_⟩, ?_⟩
  · obtain ⟨hlevel, hdir, -⟩ := pwmStep_iterate_within_interval hn
    exact ⟨_, runAll_pwms hf hs n, hlevel, hdir⟩
  · obtain ⟨-, hcount⟩ := pwmStep_waveRule ⟨hup, hdown⟩
    obtain ⟨hwrap, -⟩ := hcount (by omega)
    rw [hwrap, hzero]
  · obtain ⟨hlevel, -, hreload⟩ := pwmStep_iterate_interval s
    refine ⟨_, runAll_pwms hf hs _, hreload.trans hsub.symm, fun hd => ?_, fun hd => ?_⟩
    · rw [hlevel, hd, nextLevel_up _ (hup hd)]
    · rw [hlevel, hd, nextLevel_down _ (hdown hd)]

/-- Settles O21: the write leaves the sub-tick, so the running interval ends where it did, with a reload from the new
divisor. -/
theorem flashDivWriteTakesEffectAtNextReload : Obligations.FlashDivWriteTakesEffectAtNextReload := by
  refine ⟨writesAs_of_writeAt (a := 0x0B) (fun _ => rfl) (fun _ _ => rfl), fun d s => ⟨rfl, fun hs hf n => ?_⟩⟩
  refine ⟨State.pwmStep^[n] (s.setFlashDiv d), ?_, pwmStep_iterate_flashDiv _ _, fun hn => ?_, fun hn => ?_⟩
  · exact (runAll_cons_of_next hf rfl).trans (runAll_pwms (s := s.setFlashDiv d) hf hs n)
  · obtain ⟨hlevel, hdir, -⟩ := pwmStep_iterate_within_interval (s := s.setFlashDiv d) hn
    exact ⟨hlevel, hdir⟩
  · obtain ⟨hlevel, -, hreload⟩ := pwmStep_iterate_interval (s.setFlashDiv d)
    subst hn
    exact ⟨hreload, fun e => nextLevel_ne s.level s.dirUp (hlevel.symm.trans e)⟩

/-- Settles O56, by induction on the intervals: 255 of them climb to 255, and 255 more descend to 0 again. -/
theorem waveformPeriodIsExact : Obligations.WaveformPeriodIsExact := by
  intro s hf hs hlevel hup hsub
  have hstart : JustReloaded s 0 true := ⟨congrArg BitVec.toNat hlevel, hsub, hup⟩
  refine ⟨fun k hk => ?_, fun k hk => ?_, ?_⟩
  · obtain ⟨hl, hreload, hdir⟩ := hstart.climb hk
    exact ⟨_, runAll_pwms hf hs _, hl, hreload.trans (pwmStep_iterate_flashDiv _ s), hdir⟩
  · obtain ⟨hl, hreload, hdir⟩ := hstart.climb_descend hk
    exact ⟨_, runAll_pwms hf hs _, hl, hreload.trans (pwmStep_iterate_flashDiv _ s), hdir⟩
  · refine ⟨_, runAll_pwms hf hs _, ?_⟩
    obtain ⟨hl, hreload, hdir⟩ := hstart.climb_descend (Nat.le_refl 255)
    obtain ⟨duty, level, dirUp, sub, e⟩ := pwmStep_iterate_frame ((255 + 255) * interval s.flashDiv) s
    rw [e] at hl hreload hdir
    obtain rfl : level = s.level := BitVec.eq_of_toNat_eq (hl.trans (congrArg BitVec.toNat hlevel).symm)
    obtain rfl : dirUp = s.dirUp := hdir.trans hup.symm
    obtain rfl : sub = s.sub := hreload.trans hsub.symm
    rw [e]

end Sys2Proof
end

section
/-! PROOFS. The NV unit's registers: the reads of NV_CTRL, NV_OFFSET and EVMASK (R172, R173, R200), and the request
(R171). -/

namespace Sys2Proof

open Machine Safety

/-! ### The status byte and the request bit in arithmetic -/

/-- NV_CTRL has `nv_ready`, the complement of `nv_busy`, in bit 1 and `ie` in bit 0 (R80). -/
theorem nvCtrlByte_eq_ofNat (s : State) :
    s.nvCtrlByte = BitVec.ofNat 8 (2 * (1 - s.nvBusy.toNat) + s.ie.toNat) := by
  rw [State.nvCtrlByte, State.nvReady, pairByte_eq_ofNat]
  cases s.nvBusy <;> rfl

theorem bitOperand_eq_decide (d : Byte) : bitOperand d = decide (d.toNat % 2 = 1) :=
  Nat.testBit_zero d.toNat

/-- Either bit of NV_CTRL is set: a write in progress belongs to a pending reconciliation (R172). -/
theorem nvCtrl_ne_zero {s : State} (h : BusyInv s) : 2 * (1 - s.nvBusy.toNat) + s.ie.toNat ≠ 0 := by
  cases hbusy : s.nvBusy with
  | false => exact Nat.ne_of_gt (Nat.add_pos_left (by decide) _)
  | true =>
    obtain ⟨hie, -⟩ := h hbusy
    rw [hie]
    decide

/-- Settles O17: three rows of the register map, the cursor's without a write; the invariant has `ie` set while busy. -/
theorem nvAndHoldReads : Obligations.NvAndHoldReads := by
  refine ⟨readsAs_of_readAt (a := 0x12) (fun _ => rfl) (fun s => by rw [← nvCtrlByte_eq_ofNat]; rfl),
    readsAs_and_readOnlyAt (a := 0x13) (fun _ => rfl) (fun _ _ => rfl) (fun _ => rfl),
    readsAs_of_readAt (a := 0x14) (fun _ => rfl) (fun s => by rw [← bitByte_eq_ofNat]; rfl), ?_⟩
  rintro s ⟨-, -, -, -, -, -, hbusy⟩
  exact nvCtrl_ne_zero hbusy

theorem exec_wrNvCtrl (d : Byte) (s : State) :
    exec (.wrNvCtrl d) s = .next (if d.toNat % 2 = 1 then s.requestWrite else s) := by
  simp only [exec, execWrNvCtrl, bitOperand_eq_decide, decide_eq_true_eq]

/-- Settles O22: the register map has the write at 0x12, and it is the request exactly for an odd byte. -/
theorem nvCtrlWriteRequestsOrDoesNothing : Obligations.NvCtrlWriteRequestsOrDoesNothing := by
  refine ⟨writesAs_of_writeAt (a := 0x12) (fun _ => rfl) (fun _ _ => rfl), fun d s => ⟨fun hset => ?_, fun hclear => ?_⟩⟩
  · rw [exec_wrNvCtrl, if_pos hset]
    rfl
  · rw [exec_wrNvCtrl, if_neg (by omega)]

end Sys2Proof
end

section
/-! PROOFS. The record windows (R82, R174 to R176): their addresses and words in arithmetic, the register map there, and the
accesses on both sides of `REC_N`. -/

namespace Sys2Proof

open Machine Safety

/-! ### Addresses and words -/

theorem desiredAddr_eq_ofNat : ∀ i : RecIndex, desiredAddr i = BitVec.ofNat 6 (0x20 + i.toNat) := by decide

theorem programmedAddr_eq_ofNat : ∀ i : RecIndex, programmedAddr i = BitVec.ofNat 6 (0x30 + i.toNat) := by decide

theorem desiredAddr_toNat : ∀ i : RecIndex, (desiredAddr i).toNat = 0x20 + i.toNat := by decide

theorem programmedAddr_toNat : ∀ i : RecIndex, (programmedAddr i).toNat = 0x30 + i.toNat := by decide

/-- A read's word in arithmetic on its address (R71, R90). -/
theorem rdWord_eq_ofNat : ∀ a : RegAddr, rdWord a = BitVec.ofNat 16 (256 * a.toNat) := by decide

theorem rdWord_desiredAddr (i : RecIndex) : rdWord (desiredAddr i) = BitVec.ofNat 16 (0x2000 + 256 * i.toNat) := by
  rw [rdWord_eq_ofNat, desiredAddr_toNat, Nat.mul_add]

theorem rdWord_programmedAddr (i : RecIndex) :
    rdWord (programmedAddr i) = BitVec.ofNat 16 (0x3000 + 256 * i.toNat) := by
  rw [rdWord_eq_ofNat, programmedAddr_toNat, Nat.mul_add]

theorem wrWord_desiredAddr (i : RecIndex) (d : Byte) :
    wrWord (desiredAddr i) d = BitVec.ofNat 16 (0x6000 + 256 * i.toNat + d.toNat) := by
  rw [wrWord_eq_ofNat, desiredAddr_toNat, Nat.mul_add, ← Nat.add_assoc]

/-! ### The register map in the windows -/

section
variable {recN : Nat} {i : RecIndex} (h : i.toNat < recN)
include h

theorem readAt_desiredAddr : readAt recN (desiredAddr i) = some (.rdDesired i) := by
  obtain ⟨hwindow, hindex⟩ := desiredAddr_fields i
  simp only [readAt, hwindow, hindex, if_pos h]
  rfl

theorem readAt_programmedAddr : readAt recN (programmedAddr i) = some (.rdProgrammed i) := by
  obtain ⟨hwindow, hindex⟩ := programmedAddr_fields i
  simp only [readAt, hwindow, hindex, if_pos h]
  rfl

theorem writeAt_desiredAddr (d : Byte) : writeAt recN (desiredAddr i) d = some (.wrDesired i d) := by
  obtain ⟨hwindow, hindex⟩ := desiredAddr_fields i
  simp only [writeAt, hwindow, hindex, if_pos h]
  rfl

end

/-- The programmed copy has no write, inside the record or past it (R176). -/
theorem writeAt_programmedAddr (recN : Nat) (i : RecIndex) (d : Byte) : writeAt recN (programmedAddr i) d = none := by
  rw [writeAt_eq_none_iff, programmedAddr_toNat]
  omega

/-! ### The accesses -/

theorem inRecord_of_le {s : State} {i : RecIndex} (h : s.params.recN ≤ i.toNat) (w : Word) (a : RegAddr) (t : State) :
    inRecord s i w a t = .next (s.raise (.unmappedAccess w a)) := if_neg (Nat.not_lt.2 h)

theorem getElem?_eq_recordByte {l : List Byte} {i : Nat} (h : i < l.length) : l[i]? = some (recordByte l i) := by
  rw [recordByte, List.getD_eq_getElem?_getD, List.getElem?_eq_getElem h, Option.getD_some]

/-- Settles O18, on either side of `REC_N`: the register map and the guard of the access agree there. -/
theorem recordReads : Obligations.RecordReads := by
  intro s i
  refine ⟨fun hrec hi => ?_, fun hi => ?_⟩
  · obtain ⟨hdesired, hprogrammed⟩ := hrec
    refine ⟨?_, ?_, fun d => ?_, recordByte s.desired i.toNat, recordByte s.programmed i.toNat,
      getElem?_eq_recordByte (by rwa [hdesired]), getElem?_eq_recordByte (by rwa [hprogrammed]),
      inRecord_of_lt hi .., inRecord_of_lt hi ..⟩
    · rw [← rdWord_desiredAddr, decode_rdWord, readAt_desiredAddr hi]
    · rw [← rdWord_programmedAddr, decode_rdWord, readAt_programmedAddr hi]
    · rw [decode_wrWord, readAt_programmedAddr hi, writeAt_programmedAddr]
  · rw [← rdWord_desiredAddr, ← rdWord_programmedAddr, ← desiredAddr_eq_ofNat, ← programmedAddr_eq_ofNat]
    exact ⟨inRecord_of_le hi .., inRecord_of_le hi ..⟩

/-- Settles O23, on either side of `REC_N`: inside, the copy is the old one with one byte set. -/
theorem desiredWriteSetsOneByte : Obligations.DesiredWriteSetsOneByte := by
  intro i d s
  rw [← wrWord_desiredAddr, ← desiredAddr_eq_ofNat]
  refine ⟨fun hrec hi => ?_, fun hi => inRecord_of_le hi ..⟩
  obtain ⟨hdesired, -⟩ := hrec
  refine ⟨?_, s.desired.set i.toNat d, inRecord_of_lt hi .., List.length_set.trans hdesired,
    List.getElem?_set_self (by rwa [hdesired]), fun j hj => List.getElem?_set_ne hj.symm⟩
  rw [decode_wrWord, readAt_desiredAddr hi, writeAt_desiredAddr hi]

end Sys2Proof
end

section
/-! PROOFS. The notification's scan (R177 to R179) and the completion of the write it issued (R180, R185). -/

namespace Sys2Proof

open Machine Safety

/-! ### The notification -/

theorem exec_evNvnotify_of_enabled {s : State} (hie : s.ie = true) (hidle : s.nvBusy = false) (hheld : s.evmask = false) :
    exec .evNvnotify s = .next s.notifyStep :=
  whenEnabled_of_enabled _ _ _ ((enabled_nvNotify s).2 ⟨hie, hidle, hheld⟩)

/-- From a cursor at or past `REC_N` the notification only disables itself (R178, D40). -/
theorem notifyStep_of_past_record {s : State} (h : s.params.recN ≤ s.offset.toNat) :
    s.notifyStep = s.setScan s.offset false := by
  rw [State.notifyStep, scanLoop_succ, if_pos h]

/-- Issuing byte `k` writes the programmed copy and the write in progress, at `STATE_BASE + k` (R178, R179). -/
theorem programByte_eq (s : State) (k : Nat) :
    s.programByte k = { s with
      programmed := s.programmed.set k (recordByte s.desired k)
      nvBusy := true
      nvPa := BitVec.ofNat 16 (s.params.stateBase + k)
      nvPd := recordByte s.desired k } := by
  rw [← recordAddr_eq]
  rfl

/-- Settles O30: the scan loop's two ends, with a turn for every byte of the record, and its guard past the record. -/
theorem notifyScansToFirstDifference : Obligations.NotifyScansToFirstDifference := by
  refine ⟨fun _ => rfl, fun s hie hidle hheld => ?_⟩
  rw [exec_evNvnotify_of_enabled hie hidle hheld]
  refine ⟨?_, fun hpast => by rw [notifyStep_of_past_record hpast]; rfl⟩
  rintro ⟨⟨⟨-, -, -, hmax, -⟩, -⟩, -, -, ⟨-, hcursor⟩, -⟩
  refine ⟨fun k hk hlt hdiff hsame => ?_, fun hsame => ?_⟩
  · rw [State.notifyStep, scanLoop_of_differs _ k s hmax hlt hk hdiff hsame (by omega), programByte_eq]
    rfl
  · rw [State.notifyStep, scanLoop_of_same _ s hmax (hcursor hie) hsame (by omega)]
    rfl

/-! ### The completion -/

theorem exec_evNvdone_of_busy {s : State} (hbusy : s.nvBusy = true) (hstore : s.nvPa.toNat < s.params.nvSize) :
    exec .evNvdone s = .next s.nvComplete :=
  (whenEnabled_of_enabled _ _ _ ((enabled_nvDone s).2 hbusy)).trans (if_pos hstore)

theorem writeResult_of_exact {s : State} (h : s.params.nvWriteResult = .exact) : s.writeResult = s.nvPd := by
  rw [State.writeResult, h]

theorem writeResult_of_any {s : State} (h : s.params.nvWriteResult = .any) :
    s.writeResult = Config.drawByte s.draws := by
  rw [State.writeResult, h]

/-- The store after the completion: the byte the write leaves at its address, every other byte as before. -/
theorem nvComplete_read {s : State} (h : Memory.wf s.nv) (a : Nat) :
    Memory.read s.nvComplete.nv a = if a = s.nvPa.toNat then s.writeResult else Memory.read s.nv a := by
  rw [State.nvComplete_nv, Memory.read_write _ _ _ _ h]

/-- Settles O31: the step is `nvComplete`, one write of the store. -/
theorem nvdoneWritesOneStoreByte : Obligations.NvdoneWritesOneStoreByte := by
  refine ⟨fun _ => rfl, fun s hinv hbusy hstore => ?_⟩
  obtain ⟨hwf, -⟩ := hinv
  have hwritten : Memory.read s.nvComplete.nv s.nvPa.toNat = s.writeResult := by rw [nvComplete_read hwf, if_pos rfl]
  exact ⟨s.nvComplete, exec_evNvdone_of_busy hbusy hstore,
    fun hexact => hwritten.trans (writeResult_of_exact hexact),
    fun hany => ⟨s.draws, hwritten.trans (writeResult_of_any hany)⟩,
    fun a ha => by rw [nvComplete_read hwf, if_neg ha], rfl⟩

end Sys2Proof
end

section
/-! PROOFS. The hold (R201): what has no step under it, what still has one, and that holds do not nest. -/

namespace Sys2Proof

open Machine Safety

/-! ### Under the hold -/

section
variable {s : State} (h : s.evmask = true)
include h

/-- The hold disables every event but NVDONE (R215, R216). -/
theorem enabled_eq_false_of_held {e : Event} (he : e ≠ .nvDone) : s.enabled e = false := by
  cases e with
  | nvDone => exact absurd rfl he
  | tick | pwm | nvNotify => simp [State.enabled, h]

theorem exec_evTick_of_held (b o : Bool) : exec (.evTick b o) s = .refused (.notEnabled .tick) :=
  whenEnabled_of_not_enabled _ _ _ (enabled_eq_false_of_held h nofun)

theorem exec_evPwm_of_held : exec .evPwm s = .refused (.notEnabled .pwm) :=
  whenEnabled_of_not_enabled _ _ _ (enabled_eq_false_of_held h nofun)

theorem exec_evNvnotify_of_held : exec .evNvnotify s = .refused (.notEnabled .nvNotify) :=
  whenEnabled_of_not_enabled _ _ _ (enabled_eq_false_of_held h nofun)

end

/-- The write in progress is of a record byte, and the launch has the whole record in the store (R10). -/
theorem nvPa_lt_nvSize_of_busy {s : State} (hinv : Inv s) (hbusy : s.nvBusy = true) :
    s.nvPa.toNat < s.params.nvSize := by
  obtain ⟨⟨⟨-, -, -, -, -, -, hfits, -⟩, -⟩, -, -, -, -, -, hwrite⟩ := hinv
  obtain ⟨-, -, hrecord, -⟩ := hwrite hbusy
  exact Nat.lt_of_lt_of_le hrecord hfits

/-! ### The write of EVMASK -/

theorem exec_wrEvmask_eq_decide (d : Byte) (s : State) :
    exec (.wrEvmask d) s = .next (s.setEvmask (decide (d.toNat % 2 = 1))) := by
  rw [exec_wrEvmask, bitOperand_eq_decide]

@[simp] theorem setEvmask_setEvmask (s : State) (u v : Bool) : (s.setEvmask u).setEvmask v = s.setEvmask v := rfl

/-- Nesting is not counted (R201): after any number of writes of EVMASK the last one's bit is the hold. -/
theorem runAll_wrEvmask_replicate (d e : Byte) (n : Nat) {s : State} (hf : s.fault = none) :
    runAll (List.replicate n (.wrEvmask d) ++ [.wrEvmask e]) s = .next (s.setEvmask (bitOperand e)) := by
  induction n generalizing s with
  | zero => exact runAll_cons_of_next hf (exec_wrEvmask e s)
  | succ n ih =>
    rw [List.replicate_succ, List.cons_append, runAll_cons_of_next hf (exec_wrEvmask d s),
      ih (s := s.setEvmask (bitOperand d)) hf, setEvmask_setEvmask]

/-- Settles O24: the write is `setEvmask`, which disables all events but NVDONE, and the last of a run of writes decides. -/
theorem evmaskWriteTakesBitZero : Obligations.EvmaskWriteTakesBitZero := by
  refine ⟨writesAs_of_writeAt (a := 0x14) (fun _ => rfl) (fun _ _ => rfl), fun d s =>
    ⟨exec_wrEvmask_eq_decide d s, fun hset t ht => ?_, fun hf n => runAll_wrEvmask_replicate 0x01 0x00 n hf⟩⟩
  rw [exec_wrEvmask_eq_decide, decide_eq_true hset] at ht
  cases ht
  have hheld : (s.setEvmask true).evmask = true := State.setEvmask_evmask s true
  exact ⟨exec_evTick_of_held hheld, exec_evPwm_of_held hheld, exec_evNvnotify_of_held hheld, fun hinv hbusy =>
    ⟨_, exec_evNvdone_of_busy (s := s.setEvmask true) hbusy (nvPa_lt_nvSize_of_busy hinv hbusy)⟩⟩

end Sys2Proof
end

section
/-! PROOFS. What has no step (60_exceptions.md): a word that is no operation only records its fault, a faulted state stays
(R212), and an event has a step exactly where it is enabled (R213, R215). -/

namespace Sys2Proof

open Machine Safety

/-! ### A fault -/

/-- A state that holds a fault has no step but that fault. -/
theorem step_of_fault {s : State} {k : Fault} (h : s.fault = some k) : step s = .fault k := by
  simp only [step, h]

/-- A word that is no operation is taken, and its fault raised. -/
theorem step_of_decode_error {s : State} {w : Word} {ws : List Word} {e : DecodeError} (hf : s.fault = none)
    (hi : s.inbox = w :: ws) (he : decode s.params.recN w = .error e) :
    step s = .next ((s.setInbox ws).raise (faultOf e)) := by
  simp only [step_of_word s w ws hf hi, he]

/-- Settles O9: the step raises the word's fault on the state without the word, and from then on answers the fault. -/
theorem faultIsRecordedAndFinal : Obligations.FaultIsRecordedAndFinal :=
  fun _ _ _ _ hf hi he => ⟨step_of_decode_error hf hi he, fun _ _ => step_of_fault⟩

/-! ### An event -/

theorem notifyStep_fault (s : State) : s.notifyStep.fault = s.fault := by
  obtain ⟨_, _, _, _, _, _, e⟩ := notifyStep_frame s
  rw [e]

section
variable {i : Instr} {e : Event} {s : State} (hi : eventOf i = some e)
include hi

/-- An event's meaning is guarded by that event's own enabling (R213). -/
theorem exec_event_of_not_enabled (h : s.enabled e = false) : exec i s = .refused (.notEnabled e) := by
  cases i with
  | evTick _ _ | evPwm | evNvnotify | evNvdone => cases hi; exact whenEnabled_of_not_enabled _ _ _ h
  | _ => cases hi

/-- An enabled event has a step; for NVDONE the invariant has the write in progress inside the store. -/
theorem exec_event_of_enabled (hinv : Inv s) (h : s.enabled e = true) :
    ∃ t, exec i s = .next t ∧ t.fault = s.fault := by
  cases i with
  | evTick b o => cases hi; exact ⟨_, whenEnabled_of_enabled _ _ _ h, rfl⟩
  | evPwm => cases hi; exact ⟨_, whenEnabled_of_enabled _ _ _ h, State.pwmStep_fault s⟩
  | evNvnotify => cases hi; exact ⟨_, whenEnabled_of_enabled _ _ _ h, notifyStep_fault s⟩
  | evNvdone =>
    cases hi
    have hbusy : s.nvBusy = true := (enabled_nvDone s).1 h
    exact ⟨_, exec_evNvdone_of_busy hbusy (nvPa_lt_nvSize_of_busy hinv hbusy), State.nvComplete_fault s⟩
  | _ => cases hi

/-- Both directions at once, for whatever condition says that the event is enabled. -/
theorem exec_event_step_or_refused {enabled : Prop} (hinv : Inv s) (henabled : s.enabled e = true ↔ enabled) :
    (enabled → ∃ t, exec i s = .next t ∧ t.fault = s.fault) ∧
    (¬ enabled → exec i s = .refused (.notEnabled e)) :=
  ⟨fun h => exec_event_of_enabled hi hinv (henabled.2 h),
    fun h => exec_event_of_not_enabled hi (Bool.eq_false_of_not_eq_true (mt henabled.1 h))⟩

end

/-- Settles O26, event by event: the stated condition is R215's `enabled(e)`. -/
theorem eventsStepExactlyWhenEnabled : Obligations.EventsStepExactlyWhenEnabled := by
  intro i e s hinv hi
  cases e with
  | tick => exact exec_event_step_or_refused hi hinv (enabled_tick s)
  | pwm => exact exec_event_step_or_refused hi hinv (enabled_pwm s)
  | nvNotify => exact exec_event_step_or_refused hi hinv (enabled_nvNotify s)
  | nvDone => exact exec_event_step_or_refused hi hinv (enabled_nvDone s)

end Sys2Proof
end

section
/-! PROOFS. What a launch leaves: the reset values (R241), both copies loaded from the store (R242), and the events enabled
at once (R243). -/

namespace Sys2Proof.Machine

/-- A well-formed launch is power-on with the store `NV_INIT`. -/
theorem launch_of_launchOk {p : Config.Params} (h : launchOk p) :
    State.launch p = .next (State.powerOn p (Memory.ofCells p.nvSize p.nvInit)) :=
  if_pos h

section
variable (p : Config.Params) (nv : Memory)

theorem powerOn_desired_getElem? {i : Nat} (h : i < p.recN) :
    (State.powerOn p nv).desired[i]? = some (Memory.read (State.powerOn p nv).nv (p.stateBase + i)) :=
  loadRecord_getElem? p nv i h

theorem powerOn_desired_length : (State.powerOn p nv).desired.length = p.recN :=
  loadRecord_length p nv

/-- Nothing is held at power-on, so TICK and PWM are enabled. -/
theorem powerOn_enabled_tick_pwm :
    (State.powerOn p nv).enabled .tick = true ∧ (State.powerOn p nv).enabled .pwm = true :=
  ⟨(enabled_tick _).2 rfl, (enabled_pwm _).2 rfl⟩

/-- No notification is pending at power-on. -/
theorem powerOn_enabled_nvNotify : (State.powerOn p nv).enabled .nvNotify = false :=
  Bool.eq_false_of_not_eq_true fun h => by
    obtain ⟨hie, -, -⟩ := (enabled_nvNotify _).1 h
    cases hie

end

end Sys2Proof.Machine

namespace Sys2Proof

open Machine

/-- Settles O41: the launch answers the state at power-on, whose fields other than the copies are written down in its
definition. -/
theorem launchLeavesResetValues : Obligations.LaunchLeavesResetValues := by
  intro p hp
  obtain ⟨htick, hpwm⟩ := powerOn_enabled_tick_pwm p (Memory.ofCells p.nvSize p.nvInit)
  refine ⟨_, launch_of_launchOk hp, ?tick, ?btn, ?off, ?ledMode, ?duty, ?level, ?dirUp, ?sub, ?flashDiv, ?polarity, ?params,
    fun _ => powerOn_desired_getElem? p _, powerOn_desired_length p _, ?copiesEqual, ?offset, ?ie, ?evmask, ?nvBusy, ?fault,
    htick, hpwm, powerOn_enabled_nvNotify p _⟩
  all_goals rfl

end Sys2Proof
end

section
/-! PROOFS. The encoder and the decoder are inverse to each other on the operations of a launch (R75, R90). -/

namespace Sys2Proof

/-! ### Decoding an operation's word -/

theorem decode_rdWord_of_readAt {recN : Nat} {a : RegAddr} {i : Instr} (h : readAt recN a = some i) :
    decode recN (rdWord a) = .ok i := by
  rw [decode_rdWord, h]

theorem decode_wrWord_of_writeAt {recN : Nat} {a : RegAddr} {d : Byte} {r i : Instr} (hr : readAt recN a = some r)
    (hw : writeAt recN a d = some i) : decode recN (wrWord a d) = .ok i := by
  rw [decode_wrWord, hr, hw]

/-- Settles O1, by the operation: the register map has it at the address its word carries; an event's word has a code of its
own. -/
theorem decodeOfEncodeIsIdentity : Obligations.DecodeOfEncodeIsIdentity := by
  intro recN i hwf
  cases i with
  | rdDesired i => exact decode_rdWord_of_readAt (readAt_desiredAddr (of_decide_eq_true hwf))
  | rdProgrammed i => exact decode_rdWord_of_readAt (readAt_programmedAddr (of_decide_eq_true hwf))
  | wrDesired i d =>
    have hi : i.toNat < recN := of_decide_eq_true hwf
    exact decode_wrWord_of_writeAt (readAt_desiredAddr hi) (writeAt_desiredAddr hi d)
  | wrLedModeR d | wrLedModeG d | wrLedModeB d | wrFlashDiv d | wrNvCtrl d | wrEvmask d =>
    exact decode_wrWord_of_writeAt rfl rfl
  | evTick b o => cases b <;> cases o <;> rfl
  | evPwm | evNvnotify | evNvdone => rfl
  | _ => exact decode_rdWord_of_readAt rfl

/-! ### Encoding what the register map has -/

theorem mem_of_lookup_eq_some {rows : List (RegAddr × Instr)} {a : RegAddr} {i : Instr} (h : rows.lookup a = some i) :
    (a, i) ∈ rows := by
  obtain ⟨l, r, rfl, -⟩ := List.lookup_eq_some_iff.1 h
  simp

theorem eq_desiredAddr_of_window :
    ∀ a : RegAddr, a.extractLsb' 4 2 = 0b10#2 → desiredAddr (a.extractLsb' 0 4) = a := by decide

theorem eq_programmedAddr_of_window :
    ∀ a : RegAddr, a.extractLsb' 4 2 = 0b11#2 → programmedAddr (a.extractLsb' 0 4) = a := by decide

theorem encode_of_mem_readRows (recN : Nat) :
    ∀ row ∈ readRows, encode row.2 = rdWord row.1 ∧ row.2.wf recN = true := by
  simp [readRows, encode, Instr.wf]

theorem encode_of_mem_writeRows (recN : Nat) (d : Byte) :
    ∀ row ∈ writeRows d, encode row.2 = wrWord row.1 d ∧ row.2.wf recN = true := by
  simp [writeRows, encode, Instr.wf]

theorem encode_of_readAt {recN : Nat} {a : RegAddr} {i : Instr} (h : readAt recN a = some i) :
    encode i = rdWord a ∧ i.wf recN = true := by
  simp only [readAt] at h
  split at h
  · next hwindow =>
    obtain ⟨hlt, ⟨⟩⟩ := Option.ite_none_right_eq_some.1 h
    exact ⟨congrArg rdWord (eq_desiredAddr_of_window a hwindow), decide_eq_true hlt⟩
  · split at h
    · next hwindow =>
      obtain ⟨hlt, ⟨⟩⟩ := Option.ite_none_right_eq_some.1 h
      exact ⟨congrArg rdWord (eq_programmedAddr_of_window a hwindow), decide_eq_true hlt⟩
    · exact encode_of_mem_readRows recN _ (mem_of_lookup_eq_some h)

theorem encode_of_writeAt {recN : Nat} {a : RegAddr} {d : Byte} {i : Instr} (h : writeAt recN a d = some i) :
    encode i = wrWord a d ∧ i.wf recN = true := by
  simp only [writeAt] at h
  split at h
  · next hwindow =>
    obtain ⟨hlt, ⟨⟩⟩ := Option.ite_none_right_eq_some.1 h
    exact ⟨congrArg (wrWord · d) (eq_desiredAddr_of_window a hwindow), decide_eq_true hlt⟩
  · exact encode_of_mem_writeRows recN d _ (mem_of_lookup_eq_some h)

/-! ### Encoding what a word decodes to -/

/-- The pin field of a TICK is its two levels, the button's in bit 0 (R73). -/
theorem tick_pins : ∀ p : BitVec 2, BitVec.ofBool (p.getLsbD 1) ++ BitVec.ofBool (p.getLsbD 0) = p := by decide

/-- The only event code left below 4 (R73). -/
theorem event_eq_three : ∀ e : BitVec 4, e.toNat < 4 → e ≠ 0b0000 → e ≠ 0b0001 → e ≠ 0b0010 → e = 0b0011 := by decide

/-- An EV word that decodes has its reserved bits 0, so its code and its pins make it up. -/
theorem encode_of_decodeEvent {w : Word} {i : Instr} (h : decodeEvent w = .ok i) (recN : Nat) :
    wordEventReserved w = 0 ∧ encode i = evWord (wordEvent w) (wordPins w) ∧ i.wf recN = true := by
  simp only [decodeEvent] at h
  split at h
  · cases h
  · next hlegal =>
    obtain ⟨hcode, hreserved⟩ := not_or.1 hlegal
    refine ⟨not_not.1 hreserved, ?_⟩
    split at h
    · next htick =>
      cases h
      exact ⟨by rw [encode, tick_pins, htick], rfl⟩
    · next hntick =>
      split at h
      · cases h
      · next hpins =>
        have hpins : wordPins w = 0 := not_not.1 hpins
        rw [hpins]
        split at h
        · next hpwm => cases h; exact ⟨by rw [encode, hpwm], rfl⟩
        · next hnpwm =>
          split at h
          · next hnotify => cases h; exact ⟨by rw [encode, hnotify], rfl⟩
          · next hnnotify =>
            cases h
            exact ⟨by rw [encode, event_eq_three _ (Nat.not_le.1 hcode) hntick hnpwm hnnotify], rfl⟩

theorem encode_of_decode_rdWord {recN : Nat} {a : RegAddr} {i : Instr} (h : decode recN (rdWord a) = .ok i) :
    encode i = rdWord a ∧ i.wf recN = true := by
  rw [decode_rdWord] at h
  split at h
  · cases h
  · next hr => cases h; exact encode_of_readAt hr

theorem encode_of_decode_wrWord {recN : Nat} {a : RegAddr} {d : Byte} {i : Instr}
    (h : decode recN (wrWord a d) = .ok i) : encode i = wrWord a d ∧ i.wf recN = true := by
  rw [decode_wrWord] at h
  split at h
  · cases h
  · split at h
    · cases h
    · next hw => cases h; exact encode_of_writeAt hw

/-- Settles O2, by the word's kind: a RD or WR word is its address and data, an EV word its code and pins. -/
theorem encodeOfDecodeIsIdentity : Obligations.EncodeOfDecodeIsIdentity := by
  intro recN w i h
  have hlt : w.toNat / 2 ^ 14 < 4 := Nat.div_lt_of_lt_mul w.isLt
  obtain hk | hk | hk | hk :
      w.toNat / 2 ^ 14 = 0 ∨ w.toNat / 2 ^ 14 = 1 ∨ w.toNat / 2 ^ 14 = 2 ∨ w.toNat / 2 ^ 14 = 3 := by omega
  · by_cases hd : w.toNat % 256 = 0
    · rw [eq_rdWord_of_kind_zero hk hd] at h ⊢
      exact encode_of_decode_rdWord h
    · rw [decode_read_with_data hk hd] at h
      cases h
  · rw [eq_wrWord_of_kind_one hk] at h ⊢
    exact encode_of_decode_wrWord h
  · rw [decode_of_kind_two hk] at h
    obtain ⟨hreserved, hencode, hwf⟩ := encode_of_decodeEvent h recN
    have e := word_eq_event_fields w
    rw [(wordKind_eq_iff w 0b10).2 hk, hreserved] at e
    exact ⟨hencode.trans e.symm, hwf⟩
  · rw [decode_of_kind_three hk] at h
    cases h

end Sys2Proof
end

section
/-! PROOFS. One step by the next word (R57, R61, R75): the word decoded, no word at all, a word placed; and words and lines of
text written out from the spec (R88 to R90). -/

namespace Sys2Proof

open Machine

/-- Settles O4: each word is closed, and so is what it decodes to. -/
theorem sampleWordsDecodeAsWritten : Obligations.SampleWordsDecodeAsWritten := by
  unfold Obligations.SampleWordsDecodeAsWritten
  decide

/-- Settles O5: each line is closed, and so are its words. -/
theorem textLinesAssembleAsWritten : Obligations.TextLinesAssembleAsWritten := by
  unfold Obligations.TextLinesAssembleAsWritten
  decide

/-- Settles O6: the step's own match, at a word that decodes. -/
theorem stepRunsDecodedWord : Obligations.StepRunsDecodedWord := by
  intro s w ws i hf hi hd
  rw [step_of_word s w ws hf hi, hd]
  rfl

/-- Settles O7: the step's own match, at an empty inbox. -/
theorem noWordNoStep : Obligations.NoWordNoStep := by
  intro s hf hi
  simp only [step, hf, takeWord, hi]

/-- Placing a word puts exactly it in front of the words still to come. -/
theorem withFetchWord_inbox (s : State) (w : Word) : (s.withFetchWord 16 w.toNat).inbox = w :: s.inbox := by
  simp [State.withFetchWord, placeWord, Nat.mod_eq_of_lt w.isLt]

/-- Settles O8: the placed word decodes to its operation, and the state without that word is the state it was placed in. -/
theorem placedOperationRunsNext : Obligations.PlacedOperationRunsNext := by
  intro s i hf hwf
  exact stepRunsDecodedWord _ _ _ i hf (withFetchWord_inbox s (encode i)) (decodeOfEncodeIsIdentity _ i hwf)

end Sys2Proof
end

section
/-! PROOFS. What the operations of a launch do whatever the state (R203): a host transaction has its effect, a write done
again changes nothing (R58), and only an access past the record raises a fault (R42, R212). -/

namespace Sys2Proof.Machine

open Sys2Proof.Safety

/-! ### Host writes -/

/-- A write the launch has answers a state, which keeps the fault record and the words still to come, and which the same
write leaves as it is: each sets its fields to values of its own. -/
theorem exec_write_of_wf {i : Instr} {s : State} (hi : i.isWrite = true) (hwf : i.wf s.params.recN = true) :
    ∃ t, exec i s = .next t ∧ t.fault = s.fault ∧ t.inbox = s.inbox ∧ exec i t = .next t := by
  cases i with
  | wrDesired k d =>
    have hk : k.toNat < s.params.recN := of_decide_eq_true hwf
    refine ⟨s.setDesired k.toNat d, inRecord_of_lt hk .., rfl, rfl, ?_⟩
    refine (inRecord_of_lt (s := s.setDesired k.toNat d) hk ..).trans ?_
    simp [State.setDesired]
  | wrNvCtrl d =>
    simp only [exec, execWrNvCtrl]
    split <;> exact ⟨_, rfl, rfl, rfl, rfl⟩
  | wrLedModeR _ | wrLedModeG _ | wrLedModeB _ | wrFlashDiv _ | wrEvmask _ => exact ⟨_, rfl, rfl, rfl, rfl⟩
  | _ => cases hi

/-! ### Faults -/

/-- Only the three record-window operations are missing from a launch, where their index is past the record (R82). -/
theorem exec_of_not_wf {i : Instr} {s : State} (h : i.wf s.params.recN = false) :
    exec i s = .next (s.raise (.unmappedAccess (encode i) (wordAddr (encode i)))) := by
  cases i with
  | rdDesired k =>
    obtain ⟨-, ha, -⟩ := rdWord_fields (desiredAddr k)
    exact (inRecord_of_le (Nat.not_lt.1 (of_decide_eq_false h)) ..).trans (by rw [encode, ha])
  | rdProgrammed k =>
    obtain ⟨-, ha, -⟩ := rdWord_fields (programmedAddr k)
    exact (inRecord_of_le (Nat.not_lt.1 (of_decide_eq_false h)) ..).trans (by rw [encode, ha])
  | wrDesired k d =>
    obtain ⟨-, ha, -⟩ := wrWord_fields (desiredAddr k) d
    exact (inRecord_of_le (Nat.not_lt.1 (of_decide_eq_false h)) ..).trans (by rw [encode, ha])
  | _ => cases h

/-- An event that has a step keeps the fault record. -/
theorem exec_event_fault {i : Instr} {e : Event} {s t : State} (hi : eventOf i = some e) (h : exec i s = .next t) :
    t.fault = s.fault := by
  cases i with
  | evTick b o => rw [exec_evTick_next h]; rfl
  | evPwm => rw [exec_evPwm_next h, State.pwmStep_fault]
  | evNvnotify => rw [exec_evNvnotify_next h, notifyStep_fault]
  | evNvdone => rw [exec_evNvdone_next h]; rfl
  | _ => cases hi

/-- An operation is a host transaction, a read or a write, or an event (R70). -/
theorem isTransaction_or_event (i : Instr) :
    (i.isRead = true ∨ i.isWrite = true) ∨ ∃ e, eventOf i = some e := by
  cases i with
  | evTick _ _ | evPwm | evNvnotify | evNvdone => exact .inr ⟨_, rfl⟩
  | wrLedModeR _ | wrLedModeG _ | wrLedModeB _ | wrFlashDiv _ | wrNvCtrl _ | wrEvmask _ | wrDesired _ _ =>
    exact .inl (.inr rfl)
  | _ => exact .inl (.inl rfl)

/-- A host transaction of the launch answers a state, which keeps the fault record and the words still to come (R203). -/
theorem exec_transaction_of_wf {i : Instr} {s : State} (hi : i.isRead = true ∨ i.isWrite = true)
    (hwf : i.wf s.params.recN = true) : ∃ t, exec i s = .next t ∧ t.fault = s.fault ∧ t.inbox = s.inbox := by
  obtain hr | hw := hi
  · obtain ⟨v, h, -⟩ := exec_read_of_wf hr hwf
    exact ⟨s.reply v, h, rfl, rfl⟩
  · obtain ⟨t, h, hfault, hinbox, -⟩ := exec_write_of_wf hw hwf
    exact ⟨t, h, hfault, hinbox⟩

theorem exec_fault_of_wf {i : Instr} {s t : State} (hwf : i.wf s.params.recN = true) (h : exec i s = .next t) :
    t.fault = s.fault := by
  obtain hi | ⟨e, he⟩ := isTransaction_or_event i
  · obtain ⟨u, hu, hfault, -⟩ := exec_transaction_of_wf hi hwf
    cases hu.symm.trans h
    exact hfault
  · exact exec_event_fault he h

/-! ### The completion -/

theorem whenEnabled_eq_fault (e : Event) (s : State) (k : Fault) (o : Host.Outcome State Fault Refusal) :
    whenEnabled e s o = .fault k ↔ s.enabled e = true ∧ o = .fault k := by
  unfold whenEnabled
  split
  · next h => simp [h]
  · next h => simp [h]

/-- A completion faults exactly where a write past the store's end is in progress (log 6). -/
theorem exec_evNvdone_eq_fault_iff (s : State) (k : Fault) :
    exec .evNvdone s = .fault k ↔ s.nvBusy = true ∧ s.params.nvSize ≤ s.nvPa.toNat ∧ k = .noStoreByte s.nvPa := by
  rw [exec, execEvNvdone, whenEnabled_eq_fault, enabled_nvDone]
  refine and_congr_right fun _ => ?_
  split
  · next h => simp [Nat.not_le.2 h]
  · next h => simp [Nat.not_lt.1 h, eq_comm]

end Sys2Proof.Machine

namespace Sys2Proof

open Machine

/-- Settles O11: a read or a write, each with its own lemma. -/
theorem hostTransactionsAlwaysStep : Obligations.HostTransactionsAlwaysStep :=
  fun _ _ hi hwf => exec_transaction_of_wf hi hwf

/-- Settles O25: the state the write leaves is the one it leaves as it is. -/
theorem writesAreIdempotent : Obligations.WritesAreIdempotent := by
  intro i s t hi hwf h
  obtain ⟨u, hu, -, -, hagain⟩ := exec_write_of_wf hi hwf
  cases hu.symm.trans h
  exact hagain

/-- Settles O10: an operation of the launch keeps the fault record; any other is a record-window access past the record. -/
theorem onlyRecordAccessesRaiseFaults : Obligations.OnlyRecordAccessesRaiseFaults := by
  intro i s t h
  refine ⟨fun hwf => exec_fault_of_wf hwf h, fun hwf => ?_⟩
  cases (exec_of_not_wf hwf).symm.trans h
  exact ⟨wordAddr (encode i), rfl, wordAddr_toNat (encode i)⟩

/-- Settles O32: the completion's one test, and the invariant's bound on the address in progress. -/
theorem nvdoneFaultsOnlyPastTheStore : Obligations.NvdoneFaultsOnlyPastTheStore :=
  fun s => ⟨exec_evNvdone_eq_fault_iff s, fun hbusy hstore => ⟨_, exec_evNvdone_of_busy hbusy hstore⟩,
    nvPa_lt_nvSize_of_busy⟩

end Sys2Proof
end

section
/-! PROOFS. The block's invariant part by part: what one effect does to the debounce unit, the record, the store and the
write in progress, and that it keeps each part of the invariant. -/

namespace Sys2Proof.Machine

open Sys2Proof.Safety

/-! ### The polarity and the hysteresis counters (R33, R25) -/

theorem Effect.polarity_eq {s t : State} (e : Effect s t) : t.polarity = s.polarity := by
  cases e with
  | pwm _ => rw [pwmStep_frame]; rfl
  | notify _ _ _ =>
    obtain ⟨_, _, _, _, _, _, hframe⟩ := notifyStep_frame s
    rw [hframe]
  | _ => rfl

/-- An effect other than a TICK's leaves the debounce unit alone. -/
theorem Effect.tick_or_sameDebounce {s t : State} (e : Effect s t) :
    (∃ b o, t = s.tickStep b o) ∨ SameDebounce s t := by
  cases e with
  | tick b o _ => exact .inl ⟨b, o, rfl⟩
  | pwm _ => rw [pwmStep_frame]; exact .inr ⟨rfl, rfl, rfl⟩
  | notify _ _ _ =>
    obtain ⟨_, _, _, _, _, _, hframe⟩ := notifyStep_frame s
    rw [hframe]
    exact .inr ⟨rfl, rfl, rfl⟩
  | _ => exact .inr ⟨rfl, rfl, rfl⟩

theorem Effect.keeps_debounceInv {s t : State} (e : Effect s t) (h : DebounceInv s) : DebounceInv t := by
  obtain ⟨b, o, rfl⟩ | ⟨-, hbtn, hoff⟩ := e.tick_or_sameDebounce
  · exact ⟨debStep_cnt_lt _ _ _ h.1, debStep_cnt_lt _ _ _ h.2⟩
  · simp only [DebounceInv, hbtn, hoff, e.params_eq]
    exact h

/-- A sample that agrees with the stable value clears the hysteresis counter (R101). -/
theorem debStep_of_agrees (T : Nat) {d : Deb} {r : Bool} (h : r = d.stable) :
    debStep T d r = { raw := r, cnt := 0, stable := d.stable } := if_pos h

/-! ### The scan by its two ends (R178) -/

/-- Byte `k` is the first from the cursor on that differs. -/
def FirstDifference (s : State) (k : Nat) : Prop :=
  s.offset.toNat ≤ k ∧ k < s.params.recN ∧ Differs s k ∧ ∀ j, s.offset.toNat ≤ j → j < k → ¬ Differs s j

/-- No byte from the cursor on differs. -/
def NoDifference (s : State) : Prop := ∀ j, s.offset.toNat ≤ j → j < s.params.recN → ¬ Differs s j

theorem exists_firstDifference_or_noDifference (s : State) : (∃ k, FirstDifference s k) ∨ NoDifference s := by
  by_cases h : ∃ k, s.offset.toNat ≤ k ∧ k < s.params.recN ∧ Differs s k
  · obtain ⟨hk, hlt, hdiff⟩ := Nat.find_spec h
    exact .inl ⟨Nat.find h, hk, hlt, hdiff, fun j hj hjk hd => Nat.find_min h hjk ⟨hj, hjk.trans hlt, hd⟩⟩
  · exact .inr fun j hj hlt hd => h ⟨j, hj, hlt, hd⟩

/-- The state a notification leaves that issues byte `k`: the cursor stays on it. -/
def State.issueByte (s : State) (k : Nat) : State := (s.setScan (BitVec.ofNat 8 k) s.ie).programByte k

/-- The state a notification leaves that finds nothing to issue: the cursor is past the record and nothing is pending. -/
def State.endScan (s : State) : State := s.setScan (BitVec.ofNat 8 s.params.recN) false

section
variable (s : State) (k : Nat)

@[simp] theorem State.issueByte_params : (s.issueByte k).params = s.params := rfl
@[simp] theorem State.issueByte_desired : (s.issueByte k).desired = s.desired := rfl
@[simp] theorem State.issueByte_programmed :
    (s.issueByte k).programmed = s.programmed.set k (recordByte s.desired k) := rfl
@[simp] theorem State.issueByte_offset : (s.issueByte k).offset = BitVec.ofNat 8 k := rfl
@[simp] theorem State.issueByte_ie : (s.issueByte k).ie = s.ie := rfl
@[simp] theorem State.issueByte_evmask : (s.issueByte k).evmask = s.evmask := rfl
@[simp] theorem State.issueByte_nv : (s.issueByte k).nv = s.nv := rfl
@[simp] theorem State.issueByte_nvBusy : (s.issueByte k).nvBusy = true := rfl
@[simp] theorem State.issueByte_nvPa : (s.issueByte k).nvPa = recordAddr s.params k := rfl
@[simp] theorem State.issueByte_nvPd : (s.issueByte k).nvPd = recordByte s.desired k := rfl
@[simp] theorem State.issueByte_fault : (s.issueByte k).fault = s.fault := rfl

end

/-- A pending notification issues the first byte from the cursor on that differs, or finds none and disables itself. -/
theorem notifyStep_cases {s : State} (hinv : Inv s) (hie : s.ie = true) :
    (∃ k, FirstDifference s k ∧ s.notifyStep = s.issueByte k) ∨
    (NoDifference s ∧ s.notifyStep = s.endScan) := by
  obtain ⟨⟨⟨-, -, -, hmax, -⟩, -⟩, -, -, ⟨-, hcursor⟩, -⟩ := hinv
  obtain ⟨k, hk⟩ | hsame := exists_firstDifference_or_noDifference s
  · obtain ⟨hle, hlt, hdiff, hbefore⟩ := id hk
    exact .inl ⟨k, hk, scanLoop_of_differs _ k s hmax hlt hle hdiff hbefore (by omega)⟩
  · exact .inr ⟨hsame, scanLoop_of_same _ s hmax (hcursor hie) hsame (by omega)⟩

/-! ### The NV unit and the store by the effect -/

/-- An effect other than a request's, a notification's or a completion's leaves the NV unit, the store and the write in
progress alone. -/
theorem Effect.nv_cases {s t : State} (e : Effect s t) :
    t = s.requestWrite ∨
    (s.ie = true ∧ s.nvBusy = false ∧ t = s.notifyStep) ∨
    (s.nvBusy = true ∧ s.nvPa.toNat < s.params.nvSize ∧ t = s.nvComplete) ∨
    (SameNv s t ∧ t.nv = s.nv ∧ t.nvBusy = s.nvBusy ∧ t.nvPa = s.nvPa ∧ t.nvPd = s.nvPd) := by
  cases e with
  | request => exact .inl rfl
  | notify hie hidle _ => exact .inr (.inl ⟨hie, hidle, rfl⟩)
  | done hbusy hstore => exact .inr (.inr (.inl ⟨hbusy, hstore, rfl⟩))
  | pwm _ => rw [pwmStep_frame]; exact .inr (.inr (.inr ⟨⟨rfl, rfl, rfl⟩, rfl, rfl, rfl, rfl⟩))
  | _ => exact .inr (.inr (.inr ⟨⟨rfl, rfl, rfl⟩, rfl, rfl, rfl, rfl⟩))

/-- Only a completion writes the store. -/
theorem Effect.store_cases {s t : State} (e : Effect s t) :
    t.nv = s.nv ∨ (s.nvBusy = true ∧ s.nvPa.toNat < s.params.nvSize ∧ t = s.nvComplete) := by
  obtain rfl | ⟨-, -, rfl⟩ | hdone | ⟨-, hnv, -⟩ := e.nv_cases
  · exact .inl rfl
  · obtain ⟨_, _, _, _, _, _, hframe⟩ := notifyStep_frame s
    exact .inl (by rw [hframe])
  · exact .inr hdone
  · exact .inl hnv

theorem nvComplete_storeInv {s : State} (h : StoreInv s) (hstore : s.nvPa.toNat < s.params.nvSize) :
    StoreInv s.nvComplete :=
  ⟨Memory.write_wf _ _ _ h.1, Memory.write_within _ _ _ _ h.2 hstore⟩

theorem Effect.keeps_storeInv {s t : State} (e : Effect s t) (h : StoreInv s) : StoreInv t := by
  obtain hnv | ⟨-, hstore, rfl⟩ := e.store_cases
  · simp only [StoreInv, hnv, e.params_eq]
    exact h
  · exact nvComplete_storeInv h hstore

/-! ### The record -/

theorem scanLoop_programmed_length (n : Nat) (s : State) : (scanLoop n s).programmed.length = s.programmed.length := by
  induction n generalizing s with
  | zero => rfl
  | succ n ih =>
    rw [scanLoop_succ]
    split
    · rfl
    · split
      · exact List.length_set
      · split
        · rfl
        · exact ih _

theorem Effect.programmed_length {s t : State} (e : Effect s t) : t.programmed.length = s.programmed.length := by
  obtain rfl | ⟨-, -, rfl⟩ | ⟨-, -, rfl⟩ | ⟨⟨hprogrammed, -⟩, -⟩ := e.nv_cases
  · rfl
  · exact scanLoop_programmed_length _ s
  · rfl
  · rw [hprogrammed]

theorem Effect.desired_length {s t : State} (e : Effect s t) : t.desired.length = s.desired.length := by
  cases e with
  | desired i v _ => exact List.length_set
  | pwm _ => rw [pwmStep_frame]; rfl
  | notify _ _ _ =>
    obtain ⟨_, _, _, _, _, _, hframe⟩ := notifyStep_frame s
    rw [hframe]
  | _ => rfl

theorem Effect.keeps_recordInv {s t : State} (e : Effect s t) (h : RecordInv s) : RecordInv t := by
  simp only [RecordInv, e.desired_length, e.programmed_length, e.params_eq]
  exact h

/-! ### The write in progress -/

/-- A byte of the programmed copy after the notification that issues byte `k`. -/
theorem recordByte_issueByte {s : State} (h : RecordInv s) {k : Nat} (hk : k < s.params.recN) (j : Nat) :
    recordByte (s.issueByte k).programmed j = if j = k then recordByte s.desired k else recordByte s.programmed j :=
  recordByte_set _ _ _ (Nat.lt_of_lt_of_eq hk h.2.symm) j

theorem notifyStep_busyInv {s : State} (hinv : Inv s) (hie : s.ie = true) (hidle : s.nvBusy = false) :
    BusyInv s.notifyStep := by
  obtain ⟨k, ⟨-, hk, -⟩, hissue⟩ | ⟨-, hsame⟩ := notifyStep_cases hinv hie
  · obtain ⟨⟨hp, -⟩, -, -, -, hrecord, -⟩ := hinv
    rw [hissue]
    intro _
    rw [State.issueByte_params, State.issueByte_nvPa, recordAddr_toNat _ hp k hk, Nat.add_sub_cancel_left,
      recordByte_issueByte hrecord hk, if_pos rfl]
    exact ⟨hie, Nat.le_add_right _ _, Nat.add_lt_add_left hk _, rfl⟩
  · rw [hsame]
    exact fun hbusy => Bool.noConfusion (hidle.symm.trans hbusy)

theorem Effect.keeps_busyInv {s t : State} (e : Effect s t) (hinv : Inv s) : BusyInv t := by
  obtain ⟨-, -, -, -, -, -, hwrite⟩ := id hinv
  obtain rfl | ⟨hie, hidle, rfl⟩ | ⟨-, -, rfl⟩ | ⟨⟨hprogrammed, -, hie⟩, -, hbusy, hpa, hpd⟩ := e.nv_cases
  · exact fun hbusy => ⟨rfl, (hwrite hbusy).2⟩
  · exact notifyStep_busyInv hinv hie hidle
  · nofun
  · simp only [BusyInv, hprogrammed, hie, hbusy, hpa, hpd, e.params_eq]
    exact hwrite

/-! ### The invariant -/

theorem Effect.keeps_inv {s t : State} (e : Effect s t) (hinv : Inv s) : Inv t := by
  obtain ⟨⟨hp, hpolarity⟩, hdebounce, hwave, hscan, hrecord, hstore, -⟩ := id hinv
  obtain ⟨hwave', -⟩ := e.keeps_waveInv hwave
  exact ⟨by rw [LaunchInv, e.params_eq, e.polarity_eq]; exact ⟨hp, hpolarity⟩, e.keeps_debounceInv hdebounce, hwave',
    e.keeps_scanInv hp hscan, e.keeps_recordInv hrecord, e.keeps_storeInv hstore, e.keeps_busyInv hinv⟩

/-- Every operation that has a step keeps the invariant. -/
theorem exec_keeps_inv {i : Instr} {s t : State} (hinv : Inv s) (h : exec i s = .next t) : Inv t :=
  (exec_effect h).keeps_inv hinv

end Sys2Proof.Machine

namespace Sys2Proof

open Machine Safety

/-- Settles O33: the step has one effect, on the state without the word taken. -/
theorem stepKeepsTheInvariant : Obligations.StepKeepsTheInvariant := by
  intro s t hinv h
  obtain ⟨ws, e⟩ := step_effect h
  exact e.keeps_inv hinv

/-- Settles O34: an effect keeps the bound, and a sample that agrees clears its input's counter. -/
theorem stepKeepsHysteresisBelowThreshold : Obligations.StepKeepsHysteresisBelowThreshold := by
  constructor
  · intro s t hinv h
    obtain ⟨ws, e⟩ := step_effect h
    exact e.keeps_debounceInv hinv
  · intro b o s t h
    cases exec_evTick_next h
    exact ⟨fun hagrees => congrArg Deb.cnt (debStep_of_agrees _ hagrees),
      fun hagrees => congrArg Deb.cnt (debStep_of_agrees _ hagrees)⟩

/-- Settles O37: an effect keeps the store canonical. -/
theorem stepKeepsStoreCanonical : Obligations.StepKeepsStoreCanonical := by
  intro s t hinv h
  obtain ⟨ws, e⟩ := step_effect h
  exact e.keeps_storeInv hinv

/-- Settles O40: no effect writes either field. -/
theorem polarityAndParametersAreConstant : Obligations.PolarityAndParametersAreConstant := by
  intro s t h
  obtain ⟨ws, e⟩ := step_effect h
  exact ⟨e.polarity_eq, e.params_eq⟩

end Sys2Proof
end

section
/-! PROOFS. What the invariant says of the store: only the state record is written (R50, R52), and it follows the programmed
copy (R35, R67, R251). -/

namespace Sys2Proof.Machine

open Sys2Proof.Safety

/-! ### Outside the state record -/

/-- An effect leaves every byte outside the state record: the write in progress is to a byte of it. -/
theorem Effect.read_outside_record {s t : State} (e : Effect s t) (hinv : BusyInv s) {a : Nat}
    (ha : a < s.params.stateBase ∨ s.params.stateBase + s.params.recN ≤ a) : Memory.read t.nv a = Memory.read s.nv a := by
  obtain hnv | ⟨hbusy, -, rfl⟩ := e.store_cases
  · rw [hnv]
  · obtain ⟨-, hlo, hhi, -⟩ := hinv hbusy
    exact Memory.read_write_other _ _ _ _ (by omega)

/-- The configuration record is read from its own six bytes (R84). -/
theorem loadConfigRecord_congr {p : Config.Params} {m m' : Memory}
    (h : ∀ a, p.cfgBase ≤ a → a < p.cfgBase + cfgRecordSize → Memory.read m' a = Memory.read m a) :
    loadConfigRecord p m' = loadConfigRecord p m := by
  have hbyte (j : Nat) (hj : j < cfgRecordSize) : Memory.read m' (p.cfgBase + j) = Memory.read m (p.cfgBase + j) :=
    h _ (Nat.le_add_right _ _) (Nat.add_lt_add_left hj _)
  have hfirst := hbyte 0 (by decide)
  simp only [Nat.add_zero] at hfirst
  simp only [loadConfigRecord, hfirst, hbyte 1 (by decide), hbyte 2 (by decide), hbyte 3 (by decide), hbyte 4 (by decide),
    hbyte 5 (by decide)]

/-! ### Inside the state record -/

/-- Right after power-on both copies are the store's bytes. -/
theorem powerOn_storeAgrees (p : Config.Params) (nv : Memory) : StoreAgrees (State.powerOn p nv) := by
  intro _ i hi
  refine .inr ?_
  have hbyte := loadRecord_getElem? p nv i hi
  rw [getElem?_eq_recordByte (by rwa [loadRecord_length])] at hbyte
  exact (Option.some.inj hbyte).symm

/-- The notification that issues a byte leaves only that byte of the store behind the programmed copy. -/
theorem notifyStep_storeAgrees {s : State} (hinv : Inv s) (hie : s.ie = true) (hidle : s.nvBusy = false)
    (h : StoreAgrees s) : StoreAgrees s.notifyStep := by
  have hall (hexact : s.params.nvWriteResult = .exact) (i : Nat) (hi : i < s.params.recN) :
      Memory.read s.nv (s.params.stateBase + i) = recordByte s.programmed i :=
    (h hexact i hi).resolve_left fun ⟨hbusy, _⟩ => Bool.noConfusion (hidle.symm.trans hbusy)
  obtain ⟨k, ⟨-, hk, -⟩, hissue⟩ | ⟨-, hsame⟩ := notifyStep_cases hinv hie
  · obtain ⟨⟨hp, -⟩, -, -, -, hrecord, -⟩ := hinv
    rw [hissue]
    intro hexact i hi
    by_cases hik : i = k
    · exact .inl ⟨rfl, by rw [hik]; exact recordAddr_toNat _ hp k hk⟩
    · refine .inr ?_
      rw [recordByte_issueByte hrecord hk, if_neg hik]
      exact hall hexact i hi
  · rw [hsame]
    exact fun hexact i hi => .inr (hall hexact i hi)

/-- The completion writes the one byte that was behind: the byte issued is the programmed copy's. -/
theorem nvComplete_storeAgrees {s : State} (hinv : Inv s) (hbusy : s.nvBusy = true) (h : StoreAgrees s) :
    StoreAgrees s.nvComplete := by
  obtain ⟨-, -, -, -, -, ⟨hwf, -⟩, hwrite⟩ := hinv
  obtain ⟨-, hlo, -, hdata⟩ := hwrite hbusy
  intro hexact i hi
  refine .inr ?_
  rw [nvComplete_read hwf]
  split
  · next haddr =>
    have hi : i = s.nvPa.toNat - s.params.stateBase := by
      have haddr : s.params.stateBase + i = s.nvPa.toNat := haddr
      omega
    rw [writeResult_of_exact (s := s) hexact, ← hdata, hi, State.nvComplete_programmed]
  · next haddr => exact (h hexact i hi).resolve_left fun hprogress => haddr hprogress.2.symm

theorem Effect.keeps_storeAgrees {s t : State} (e : Effect s t) (hinv : Inv s) (h : StoreAgrees s) : StoreAgrees t := by
  obtain rfl | ⟨hie, hidle, rfl⟩ | ⟨hbusy, -, rfl⟩ | ⟨⟨hprogrammed, -⟩, hnv, hbusy, hpa, -⟩ := e.nv_cases
  · exact h
  · exact notifyStep_storeAgrees hinv hie hidle h
  · exact nvComplete_storeAgrees hinv hbusy h
  · simp only [StoreAgrees, hprogrammed, hnv, hbusy, hpa, e.params_eq]
    exact h

end Sys2Proof.Machine

namespace Sys2Proof

open Machine Safety

/-- Settles O38: a step's effect leaves every byte outside the state record, and the two records share none (R10). -/
theorem onlyTheStateRecordIsWritten : Obligations.OnlyTheStateRecordIsWritten := by
  intro s t hinv h
  obtain ⟨ws, e⟩ := step_effect h
  obtain ⟨⟨⟨-, -, -, -, -, -, -, -, hapart⟩, -⟩, -, -, -, -, -, hbusy⟩ := hinv
  refine ⟨fun a ha => e.read_outside_record hbusy ha, ?_⟩
  rw [e.params_eq]
  exact loadConfigRecord_congr fun a hlo hhi => e.read_outside_record hbusy (by
    simp only [State.setInbox_params] at *; omega)

/-- Settles O39: power-on loads the programmed copy from the store, and a step's effect keeps them together. -/
theorem storeFollowsProgrammedCopy : Obligations.StoreFollowsProgrammedCopy := by
  constructor
  · intro p s h
    obtain ⟨-, rfl⟩ := launch_eq_next h
    exact powerOn_storeAgrees p _
  · intro s t hinv hagrees h
    obtain ⟨ws, e⟩ := step_effect h
    exact e.keeps_storeAgrees hinv hagrees

end Sys2Proof
end

section
/-! PROOFS. Reconciliation: the bytes below the cursor stay reconciled (R183, R249), then a whole reconciliation by its
rounds, a notification and the completion of the write it issued (R181, R182, R257). -/

namespace Sys2Proof.Machine

open Sys2Proof.Safety

/-! ### The two copies -/

/-- Two copies of the record's size that differ in no byte are equal. -/
theorem copies_eq_of_no_differing {s : State} (h : RecordInv s) (hsame : ∀ i, i < s.params.recN → ¬ Differs s i) :
    s.programmed = s.desired := by
  obtain ⟨hdesired, hprogrammed⟩ := h
  refine List.ext_getElem? fun i => ?_
  by_cases hi : i < s.params.recN
  · rw [getElem?_eq_recordByte (by rwa [hprogrammed]), getElem?_eq_recordByte (by rwa [hdesired]), not_not.1 (hsame i hi)]
  · rw [List.getElem?_eq_none (by omega), List.getElem?_eq_none (by omega)]

/-- With the bytes below the cursor reconciled and nothing found from the cursor on, no byte differs. -/
theorem NoDifference.all_same {s : State} (h : NoDifference s) (hbelow : ReconciledBelowCursor s) (i : Nat)
    (hi : i < s.params.recN) : ¬ Differs s i := by
  by_cases hcursor : s.offset.toNat ≤ i
  · exact h i hcursor hi
  · exact not_not_intro (hbelow i (Nat.not_le.1 hcursor))

/-- In a well-formed launch an index of the record, and `REC_N` itself, is a value of the cursor (R36). -/
theorem cursor_toNat {s : State} (hinv : Inv s) {k : Nat} (hk : k ≤ s.params.recN) : (BitVec.ofNat 8 k).toNat = k := by
  obtain ⟨⟨⟨-, -, -, hmax, -⟩, -⟩, -⟩ := hinv
  rw [BitVec.toNat_ofNat]
  omega

/-! ### The bytes below the cursor -/

/-- Issuing the first byte that differs moves the cursor over bytes that are the same. -/
theorem FirstDifference.reconciled_issueByte {s : State} {k : Nat} (h : FirstDifference s k) (hinv : Inv s)
    (hbelow : ReconciledBelowCursor s) : ReconciledBelowCursor (s.issueByte k) := by
  obtain ⟨-, hk, -, hbefore⟩ := h
  obtain ⟨-, -, -, -, hrecord, -⟩ := id hinv
  intro j hj
  rw [State.issueByte_offset, cursor_toNat hinv hk.le] at hj
  rw [State.issueByte_desired, recordByte_issueByte hrecord hk, if_neg hj.ne]
  by_cases hcursor : s.offset.toNat ≤ j
  · exact not_not.1 (hbefore j hcursor hj)
  · exact hbelow j (Nat.not_le.1 hcursor)

/-- A notification keeps the bytes below the cursor reconciled, and disables itself only with both copies equal. -/
theorem notifyStep_reconciles {s : State} (hinv : Inv s) (hie : s.ie = true) (hbelow : ReconciledBelowCursor s) :
    ReconciledBelowCursor s.notifyStep ∧ (s.notifyStep.ie = false → s.notifyStep.programmed = s.notifyStep.desired) := by
  obtain ⟨k, hfirst, hissue⟩ | ⟨hnone, hend⟩ := notifyStep_cases hinv hie
  · rw [hissue]
    exact ⟨hfirst.reconciled_issueByte hinv hbelow, fun hoff => Bool.noConfusion (hie.symm.trans hoff)⟩
  · rw [hend]
    have hsame := hnone.all_same hbelow
    obtain ⟨-, -, -, -, hrecord, -⟩ := id hinv
    refine ⟨fun j hj => not_not.1 (hsame j ?_), fun _ => copies_eq_of_no_differing hrecord hsame⟩
    exact (cursor_toNat hinv (Nat.le_refl _)) ▸ hj

/-- A write of the desired copy at or past the cursor leaves the bytes below it. -/
theorem setDesired_keeps_reconciled {s : State} {j : Nat} {d : Byte} (hj : s.offset.toNat ≤ j)
    (hbelow : ReconciledBelowCursor s) : ReconciledBelowCursor (s.setDesired j d) := by
  intro i hi
  have hij : j ≠ i := (Nat.lt_of_lt_of_le hi hj).ne'
  rw [State.setDesired_desired, recordByte, List.getD_eq_getElem?_getD, List.getElem?_set_ne hij,
    ← List.getD_eq_getElem?_getD]
  exact hbelow i hi

/-- Every operation but a notification keeps the bytes below the cursor reconciled and the pending flag set: a request puts
the cursor on byte 0, a desired-copy write is guarded, and no other writes a copy, the cursor or the flag (R45). -/
theorem exec_keeps_reconciled {i : Instr} {s t : State} (hi : i ≠ .evNvnotify) (hbelow : ReconciledBelowCursor s)
    (hguard : ∀ j d, i = .wrDesired j d → s.offset.toNat ≤ j.toNat) (h : exec i s = .next t) :
    ReconciledBelowCursor t ∧ (s.ie = true → t.ie = true) := by
  cases i with
  | evNvnotify => exact absurd rfl hi
  | wrNvCtrl d =>
    obtain rfl | rfl := exec_wrNvCtrl_next h
    · exact ⟨fun j hj => absurd hj (Nat.not_lt_zero j), fun _ => rfl⟩
    · exact ⟨hbelow, id⟩
  | wrDesired j d =>
    obtain rfl | ⟨k, rfl⟩ := exec_wrDesired_next h
    · exact ⟨setDesired_keeps_reconciled (hguard j d rfl) hbelow, id⟩
    · exact ⟨hbelow, id⟩
  | _ =>
    obtain ⟨-, -, -, -, -, -, -, hdesired, -, -, hnv, -⟩ := everyFieldHasOneWriter _ s t h
    obtain ⟨hprogrammed, hoffset, hie⟩ := hnv nofun nofun
    simp only [ReconciledBelowCursor, hdesired nofun, hprogrammed, hoffset, hie]
    exact ⟨hbelow, id⟩

/-! ### One round -/

theorem differs_issueByte_iff {s : State} (h : RecordInv s) {k : Nat} (hk : k < s.params.recN) (j : Nat) :
    Differs (s.issueByte k) j ↔ j ≠ k ∧ Differs s j := by
  rw [Differs, State.issueByte_desired, recordByte_issueByte h hk]
  split
  · next hj => simp [hj]
  · next hj => simp [hj]

theorem differing_eq_card (s : State) : differing s = ((Finset.range s.params.recN).filter (Differs s)).card := rfl

/-- Issuing a byte that differs leaves one byte fewer that differs. -/
theorem differing_issueByte {s : State} (h : RecordInv s) {k : Nat} (hk : k < s.params.recN) (hdiff : Differs s k) :
    differing (s.issueByte k) + 1 = differing s := by
  have herase : (Finset.range s.params.recN).filter (Differs (s.issueByte k)) =
      ((Finset.range s.params.recN).filter (Differs s)).erase k := by
    ext j
    simp only [Finset.mem_filter, Finset.mem_erase, differs_issueByte_iff h hk]
    tauto
  rw [differing_eq_card, State.issueByte_params, herase, differing_eq_card]
  exact Finset.card_erase_add_one (Finset.mem_filter.2 ⟨Finset.mem_range.2 hk, hdiff⟩)

theorem differing_eq_zero_iff (s : State) : differing s = 0 ↔ ∀ i, i < s.params.recN → ¬ Differs s i := by
  rw [differing_eq_card, Finset.card_eq_zero, Finset.filter_eq_empty_iff]
  simp only [Finset.mem_range]

/-- The store holds the programmed copy's byte `i`. -/
def StoredByte (s : State) (i : Nat) : Prop :=
  Memory.read s.nv (s.params.stateBase + i) = recordByte s.programmed i

/-- The state `s`, between two rounds of a reconciliation that began in `s₀` (R181): what the next round needs, and what the
rounds so far have done. -/
structure Reconciling (s₀ s : State) : Prop where
  inv : Inv s
  fault : s.fault = none
  ie : s.ie = true
  idle : s.nvBusy = false
  unheld : s.evmask = false
  reconciled : ReconciledBelowCursor s
  params : s.params = s₀.params
  desired : s.desired = s₀.desired
  stored : s.params.nvWriteResult = .exact → ∀ i, i < s.params.recN → Differs s₀ i → Differs s i ∨ StoredByte s i

section
variable {s₀ s : State} (h : Reconciling s₀ s)
include h

theorem Reconciling.exec_notify : exec .evNvnotify s = .next s.notifyStep :=
  exec_evNvnotify_of_enabled h.ie h.idle h.unheld

/-- While bytes differ the notification issues the first of them. -/
theorem Reconciling.exists_issueByte (hpos : 0 < differing s) :
    ∃ k, FirstDifference s k ∧ s.notifyStep = s.issueByte k := by
  obtain hissue | ⟨hnone, -⟩ := notifyStep_cases h.inv h.ie
  · exact hissue
  · exact absurd ((differing_eq_zero_iff s).2 (hnone.all_same h.reconciled)) hpos.ne'

/-- With no byte that differs the notification disables itself. -/
theorem Reconciling.notifyStep_of_none (hzero : differing s = 0) : s.notifyStep = s.endScan := by
  obtain ⟨k, ⟨-, hk, hdiff, -⟩, -⟩ | ⟨-, hend⟩ := notifyStep_cases h.inv h.ie
  · exact absurd hdiff ((differing_eq_zero_iff s).1 hzero k hk)
  · exact hend

/-- The round of byte `k` puts it in the store, where the write leaves the byte issued, and leaves every other byte. -/
theorem Reconciling.stored_round {k : Nat} (hk : k < s.params.recN) (hexact : s.params.nvWriteResult = .exact) (i : Nat)
    (hi : i < s.params.recN) (hdiff : Differs s₀ i) :
    Differs (s.issueByte k).nvComplete i ∨ StoredByte (s.issueByte k).nvComplete i := by
  obtain ⟨⟨hp, -⟩, -, -, -, hrecord, ⟨hwf, -⟩, -⟩ := h.inv
  have haddr := recordAddr_toNat s.params hp k hk
  have hread := nvComplete_read (s := s.issueByte k) hwf (s.params.stateBase + i)
  rw [State.issueByte_nvPa, haddr, writeResult_of_exact (s := s.issueByte k) hexact] at hread
  by_cases hik : i = k
  · refine .inr (hread.trans ?_)
    rw [if_pos (by rw [hik]), State.nvComplete_programmed, recordByte_issueByte hrecord hk, if_pos hik]
    rfl
  · refine (h.stored hexact i hi hdiff).imp (fun hd => (differs_issueByte_iff hrecord hk i).2 ⟨hik, hd⟩) fun hstored => ?_
    refine hread.trans ?_
    rw [if_neg (by omega), State.nvComplete_programmed, recordByte_issueByte hrecord hk, if_neg hik]
    exact hstored

/-- One round: a notification that issues a byte, and its completion, after which one byte fewer differs (R181). -/
theorem Reconciling.exists_round (hpos : 0 < differing s) :
    ∃ u t, exec .evNvnotify s = .next u ∧ u.fault = none ∧ exec .evNvdone u = .next t ∧ Reconciling s₀ t ∧
      differing t + 1 = differing s := by
  obtain ⟨k, hfirst, hissue⟩ := h.exists_issueByte hpos
  obtain ⟨-, hk, hdiff, -⟩ := id hfirst
  obtain ⟨-, -, -, -, hrecord, -⟩ := h.inv
  have hnotify : exec .evNvnotify s = .next (s.issueByte k) := hissue ▸ h.exec_notify
  have hinv := exec_keeps_inv h.inv hnotify
  have hdone := exec_evNvdone_of_busy (s := s.issueByte k) rfl (nvPa_lt_nvSize_of_busy hinv rfl)
  exact ⟨_, _, hnotify, h.fault, hdone,
    { inv := exec_keeps_inv hinv hdone
      fault := h.fault
      ie := h.ie
      idle := rfl
      unheld := h.unheld
      reconciled := hfirst.reconciled_issueByte h.inv h.reconciled
      params := h.params
      desired := h.desired
      stored := h.stored_round hk },
    differing_issueByte hrecord hk hdiff⟩

end

/-- The rounds of a reconciliation: each makes one byte fewer differ. -/
theorem Reconciling.exists_rounds {s₀ s : State} (h : Reconciling s₀ s) {n : Nat} (hn : n ≤ differing s) :
    ∃ t, runAll (rounds n) s = .next t ∧ Reconciling s₀ t ∧ differing t + n = differing s := by
  induction n generalizing s with
  | zero => exact ⟨s, rfl, h, rfl⟩
  | succ n ih =>
    obtain ⟨u, v, hnotify, hfault, hdone, hv, hcount⟩ := h.exists_round (by omega)
    obtain ⟨t, hrun, ht, hleft⟩ := ih hv (by omega)
    refine ⟨t, ?_, ht, by omega⟩
    rw [Safety.rounds, runAll_cons_of_next h.fault hnotify, runAll_cons_of_next hfault hdone, hrun]

end Sys2Proof.Machine

namespace Sys2Proof

open Machine Safety

/-- Settles O57: a notification, or any other operation, which leaves the pending flag set. -/
theorem disableMeansReconciled : Obligations.DisableMeansReconciled := by
  intro i s t hinv hbelow h hguard
  by_cases hi : i = .evNvnotify
  · subst hi
    obtain ⟨henabled, -⟩ := (whenEnabled_eq_next ..).1 h
    obtain ⟨hie, -, -⟩ := (enabled_nvNotify s).1 henabled
    cases exec_evNvnotify_next h
    exact (notifyStep_reconciles hinv hie hbelow).imp_right fun hequal _ => hequal
  · obtain ⟨hkept, hie⟩ := exec_keeps_reconciled hi hbelow hguard h
    exact ⟨hkept, fun hon hoff => Bool.noConfusion ((hie hon).symm.trans hoff)⟩

/-- Settles O58, by induction on the rounds; the last notification finds no byte that differs. -/
theorem reconciliationTakesOneWritePerDifference : Obligations.ReconciliationTakesOneWritePerDifference := by
  intro s hinv hfault hie hoffset hidle hheld
  have h : Reconciling s s :=
    { inv := hinv, fault := hfault, ie := hie, idle := hidle, unheld := hheld
      reconciled := fun j hj => by rw [hoffset] at hj; exact absurd hj (Nat.not_lt_zero j)
      params := rfl, desired := rfl, stored := fun _ _ _ hdiff => .inl hdiff }
  constructor
  · intro k hk
    obtain ⟨u, hrun, hu, hcount⟩ := h.exists_rounds hk
    exact ⟨u, hrun, hu.ie, hcount⟩
  · obtain ⟨u, hrun, hu, hcount⟩ := h.exists_rounds (Nat.le_refl _)
    have hzero : differing u = 0 := by omega
    have hsame := (differing_eq_zero_iff u).1 hzero
    obtain ⟨-, -, -, -, hrecord, -⟩ := hu.inv
    have hend : exec .evNvnotify u = .next u.endScan := hu.notifyStep_of_none hzero ▸ hu.exec_notify
    have hcopies : u.programmed = s.desired := (copies_eq_of_no_differing hrecord hsame).trans hu.desired
    refine ⟨u.endScan, ?_, rfl, hu.idle, ?_, hu.desired, hcopies, fun hexact i hi hdiff => ?_⟩
    · rw [runAll_append _ hrun, runAll_cons_of_next hu.fault hend, runAll_nil]
    · rw [← hu.params]
      exact cursor_toNat hu.inv (Nat.le_refl _)
    · rw [← hu.params] at hexact hi ⊢
      rw [← hcopies]
      exact (hu.stored hexact i hi hdiff).resolve_left (hsame i hi)

end Sys2Proof
end

section
/-! PROOFS. What a launch and a power cycle leave: the invariant (R241, R242), the store's initial contents (R8), and the
reset values under the store as it was (R229). -/

namespace Sys2Proof.Machine

open Sys2Proof.Safety

/-! ### Power-on -/

/-- Power-on over a canonical store meets the invariant: every counter is 0, the waveform rises from 0, and nothing is
pending or in progress. -/
theorem powerOn_inv {p : Config.Params} {nv : Memory} (hp : launchOk p) (hnv : Memory.wf nv ∧ Memory.within p.nvSize nv) :
    Inv (State.powerOn p nv) := by
  obtain ⟨hT, -⟩ := id hp
  exact ⟨⟨hp, rfl⟩, ⟨hT, hT⟩, ⟨fun _ => (by decide : (0 : Byte).toNat < 255), nofun⟩, ⟨Nat.zero_le _, nofun⟩,
    ⟨loadRecord_length p nv, loadRecord_length p nv⟩, hnv, nofun⟩

theorem launch_inv {p : Config.Params} {s : State} (h : State.launch p = .next s) : Inv s := by
  obtain ⟨hp, rfl⟩ := launch_eq_next h
  exact powerOn_inv hp (Memory.ofCells_wf _ _)

/-- The launch of 95_test_vectors.md is well formed, so the reset state is what it answers (log 2). -/
theorem launch_vectorLaunch : State.launch Config.vectorLaunch = .next State.reset :=
  launch_of_launchOk (by decide)

/-! ### The store made of cells -/

/-- The store made of cells takes them one after another. -/
theorem Memory.ofCells_concat (size : Nat) (cells : List Host.Cell) (c : Host.Cell) :
    Memory.ofCells size (cells ++ [c]) =
      if c.1 < size then Memory.write (Memory.ofCells size cells) c.1 c.2 else Memory.ofCells size cells :=
  List.foldl_concat ..

/-- Cells at other addresses leave a byte as the cells before them gave it. -/
theorem Memory.read_ofCells_append {size a : Nat} (l : List Host.Cell) {r : List Host.Cell} (h : ∀ c ∈ r, c.1 ≠ a) :
    Memory.read (Memory.ofCells size (l ++ r)) a = Memory.read (Memory.ofCells size l) a := by
  induction r using List.reverseRecOn with
  | nil => rw [List.append_nil]
  | append_singleton r c ih =>
    obtain ⟨hr, hc⟩ := List.forall_mem_append.1 h
    have ha : a ≠ c.1 := (hc c (List.mem_singleton.2 rfl)).symm
    rw [← List.append_assoc, Memory.ofCells_concat]
    split
    · rw [Memory.read_write_other _ _ _ _ ha, ih hr]
    · exact ih hr

/-- The last cell for an address of the store gives its byte. -/
theorem Memory.read_ofCells_concat {size a : Nat} (l : List Host.Cell) (v : Byte) (ha : a < size) :
    Memory.read (Memory.ofCells size (l ++ [(a, v)])) a = v := by
  obtain ⟨hwf, -⟩ := Memory.ofCells_wf size l
  rw [Memory.ofCells_concat, if_pos ha, Memory.read_write _ _ _ _ hwf, if_pos rfl]

end Sys2Proof.Machine

namespace Sys2Proof

open Machine Safety

/-- Settles O43: power-on meets the invariant, and the reset state is a launch's. -/
theorem launchMeetsTheInvariant : Obligations.LaunchMeetsTheInvariant :=
  ⟨fun _ _ => launch_inv, launch_inv launch_vectorLaunch⟩

/-- Settles O42: the launch's store is made of the cells of `NV_INIT`, of which the last for an address counts. -/
theorem launchStoreHoldsInitialContents : Obligations.LaunchStoreHoldsInitialContents := by
  intro p s h a ha
  obtain ⟨-, rfl⟩ := launch_eq_next h
  refine ⟨fun hnone => Memory.read_ofCells_append [] hnone, fun l r v hinit hlast => ?_⟩
  have hcells : p.nvInit = (l ++ [(a, v)]) ++ r := by simpa using hinit
  show Memory.read (Memory.ofCells p.nvSize p.nvInit) a = v
  rw [hcells, Memory.read_ofCells_append _ hlast, Memory.read_ofCells_concat l v ha]

/-- Settles O45: the state is that of power-on over the store as it was, which the invariant has canonical. -/
theorem powerCycleKeepsOnlyTheStore : Obligations.PowerCycleKeepsOnlyTheStore := by
  rintro s ⟨⟨hp, -⟩, -, -, -, -, hstore, -⟩
  refine ⟨powerOn_inv hp hstore, ?nv, ?params, ?tick, ?btn, ?off, ?ledMode, ?duty, ?level, ?dirUp, ?sub, ?flashDiv, ?polarity,
    powerOn_desired_length s.params s.nv, ?copiesEqual, fun _ => powerOn_desired_getElem? s.params s.nv, ?offset, ?ie, ?evmask,
    ?nvBusy, ?fault⟩
  all_goals rfl

end Sys2Proof
end

section
/-! PROOFS. Nothing the block does depends on the store (R184, R185): putting another store under a state commutes with every
operation. For the scan and for a PWM event that is shown once for all such updates. -/

namespace Sys2Proof.Machine

open Sys2Proof.Safety

/-! ### Updates the scan commutes with -/

/-- The update leaves what the scan reads, and commutes with what it writes. -/
structure ScanBlind (f : State → State) : Prop where
  recN (s : State) : (f s).params.recN = s.params.recN
  desired (s : State) : (f s).desired = s.desired
  programmed (s : State) : (f s).programmed = s.programmed
  offset (s : State) : (f s).offset = s.offset
  ie (s : State) : (f s).ie = s.ie
  setScan (s : State) (o : Byte) (e : Bool) : (f s).setScan o e = f (s.setScan o e)
  programByte (s : State) (k : Nat) : (f s).programByte k = f (s.programByte k)

theorem ScanBlind.scanLoop {f : State → State} (hf : ScanBlind f) (n : Nat) (s : State) :
    scanLoop n (f s) = f (scanLoop n s) := by
  induction n generalizing s with
  | zero => rfl
  | succ n ih =>
    rw [scanLoop_succ, scanLoop_succ, hf.recN, hf.desired, hf.programmed, hf.offset, hf.ie]
    split
    · exact hf.setScan ..
    · split
      · exact hf.programByte ..
      · split
        · exact hf.setScan ..
        · rw [hf.setScan, ih]

theorem ScanBlind.notifyStep {f : State → State} (hf : ScanBlind f) (s : State) : (f s).notifyStep = f s.notifyStep := by
  rw [State.notifyStep, hf.recN, hf.scanLoop]
  rfl

/-! ### Updates a PWM event commutes with -/

/-- A PWM event commutes with an update that leaves the modes, the waveform and the divisor, and that commutes with the writes
of the duties and the waveform. -/
theorem pwmStep_comm {f : State → State} {s : State} (hmodes : (f s).ledMode = s.ledMode) (hled : SameLed s (f s))
    (hdiv : (f s).flashDiv = s.flashDiv)
    (hwrites : ∀ d l u b, ((f s).setDuty d).setWave l u b = f ((s.setDuty d).setWave l u b)) :
    (f s).pwmStep = f s.pwmStep := by
  obtain ⟨-, hlevel, hdir, hsub⟩ := hled
  by_cases h : s.sub = 1
  · rw [pwmStep_of_sub_one s h, pwmStep_of_sub_one (f s) (hsub.trans h), hmodes, hlevel, hdir, hdiv, hwrites]
  · rw [pwmStep_of_sub_ne_one s h, pwmStep_of_sub_ne_one (f s) (hsub ▸ h), hmodes, hlevel, hdir, hsub, hwrites]

/-! ### Another store -/

/-- `s` with other contents of the store, another rule of what a completed write leaves, and another count of free values
drawn: the parts the block never reads. -/
def State.withStore (nv : Memory) (r : Config.NvWriteResult) (n : Nat) (s : State) : State :=
  { s with nv := nv, params := { s.params with nvWriteResult := r }, draws := n }

/-- The outcome with its state, where it has one, updated by `f`. -/
def mapNext (f : State → State) : Host.Outcome State Fault Refusal → Host.Outcome State Fault Refusal
  | .next s => .next (f s)
  | .fault k => .fault k
  | .refused r => .refused r

section
variable (nv : Memory) (r : Config.NvWriteResult) (n : Nat)

theorem scanBlind_withStore : ScanBlind (State.withStore nv r n) where
  recN _ := rfl
  desired _ := rfl
  programmed _ := rfl
  offset _ := rfl
  ie _ := rfl
  setScan _ _ _ := rfl
  programByte _ _ := rfl

theorem pwmStep_withStore (s : State) : (s.withStore nv r n).pwmStep = s.pwmStep.withStore nv r n :=
  pwmStep_comm (f := State.withStore nv r n) rfl ⟨rfl, rfl, rfl, rfl⟩ rfl fun _ _ _ _ => rfl

/-- An event's enabling does not look at the store. -/
theorem whenEnabled_withStore (e : Event) (s : State) {t t' : State} (h : t' = t.withStore nv r n) :
    whenEnabled e (s.withStore nv r n) (.next t') = mapNext (State.withStore nv r n) (whenEnabled e s (.next t)) := by
  have henabled : (s.withStore nv r n).enabled e = s.enabled e := by cases e <;> rfl
  simp only [whenEnabled, henabled, h]
  split <;> rfl

theorem inRecord_withStore (s t : State) (i : RecIndex) (w : Word) (a : RegAddr) :
    inRecord (s.withStore nv r n) i w a (t.withStore nv r n) = mapNext (State.withStore nv r n) (inRecord s i w a t) := by
  by_cases h : i.toNat < s.params.recN
  · rw [inRecord_of_lt h, inRecord_of_lt (s := s.withStore nv r n) h]
    rfl
  · rw [inRecord_of_le (Nat.not_lt.1 h), inRecord_of_le (s := s.withStore nv r n) (Nat.not_lt.1 h)]
    rfl

/-- Every operation but a completion has the same outcome over another store, and leaves that store. -/
theorem exec_withStore {i : Instr} (hi : i ≠ .evNvdone) (s : State) :
    exec i (s.withStore nv r n) = mapNext (State.withStore nv r n) (exec i s) := by
  cases i with
  | evNvdone => exact absurd rfl hi
  | evTick b o => exact whenEnabled_withStore nv r n .tick s rfl
  | evPwm => exact whenEnabled_withStore nv r n .pwm s (pwmStep_withStore nv r n s)
  | evNvnotify => exact whenEnabled_withStore nv r n .nvNotify s ((scanBlind_withStore nv r n).notifyStep s)
  | rdDesired k => exact inRecord_withStore nv r n s (s.reply (recordByte s.desired k.toNat)) k _ _
  | rdProgrammed k => exact inRecord_withStore nv r n s (s.reply (recordByte s.programmed k.toNat)) k _ _
  | wrDesired k d => exact inRecord_withStore nv r n s (s.setDesired k.toNat d) k _ _
  | wrNvCtrl d =>
    simp only [exec_wrNvCtrl]
    split <;> rfl
  | _ => rfl

/-- A completion has the same outcome but for the byte it leaves and the value it draws. -/
theorem exec_evNvdone_withStore (s : State) :
    ∃ nv' n', exec .evNvdone (s.withStore nv r n) = mapNext (State.withStore nv' r n') (exec .evNvdone s) := by
  refine ⟨(s.withStore nv r n).nvComplete.nv, (s.withStore nv r n).nvComplete.draws, ?_⟩
  cases hbusy : s.nvBusy with
  | false =>
    have hidle (u : State) (hu : u.nvBusy = false) : exec .evNvdone u = .refused (.notEnabled .nvDone) :=
      whenEnabled_of_not_enabled _ _ _ hu
    rw [hidle s hbusy, hidle (s.withStore nv r n) hbusy]
    rfl
  | true =>
    by_cases hstore : s.nvPa.toNat < s.params.nvSize
    · rw [exec_evNvdone_of_busy hbusy hstore, exec_evNvdone_of_busy (s := s.withStore nv r n) hbusy hstore]
      rfl
    · have hpast := Nat.not_lt.1 hstore
      rw [(exec_evNvdone_eq_fault_iff s _).2 ⟨hbusy, hpast, rfl⟩,
        (exec_evNvdone_eq_fault_iff (s.withStore nv r n) _).2 ⟨hbusy, hpast, rfl⟩]
      rfl

theorem exists_exec_withStore (i : Instr) (s : State) :
    ∃ nv' n', exec i (s.withStore nv r n) = mapNext (State.withStore nv' r n') (exec i s) := by
  by_cases hi : i = .evNvdone
  · rw [hi]
    exact exec_evNvdone_withStore nv r n s
  · exact ⟨nv, n, exec_withStore nv r n hi s⟩

end

end Sys2Proof.Machine

namespace Sys2Proof

open Machine Safety

/-- Settles O48: the outcome over another store is the outcome over the first, with the state's store another. -/
theorem blockNeverReadsTheStore : Obligations.BlockNeverReadsTheStore := by
  intro i s nv r n s'
  obtain ⟨nv', n', h⟩ := exists_exec_withStore nv r n i s
  exact ⟨fun t ht => ⟨nv', n', h.trans (congrArg _ ht)⟩, fun k hk => h.trans (congrArg _ hk),
    fun q hq => h.trans (congrArg _ hq)⟩

end Sys2Proof
end

section
/-! PROOFS. Two enabled events reach the same state in either order (R219): each update leaves what enables the other event, and
the two updates commute. -/

namespace Sys2Proof.Machine

open Sys2Proof.Safety

/-! ### An event's step, with what enables it -/

theorem next_eq_next_iff {s t : State} :
    (.next s : Host.Outcome State Fault Refusal) = .next t ↔ t = s := by
  rw [Host.Outcome.next.injEq, eq_comm]

theorem exec_evTick_eq_next_iff {b o : Bool} {s t : State} :
    exec (.evTick b o) s = .next t ↔ s.evmask = false ∧ t = s.tickStep b o := by
  rw [exec, execEvTick, whenEnabled_eq_next, enabled_tick, next_eq_next_iff]

theorem exec_evPwm_eq_next_iff {s t : State} : exec .evPwm s = .next t ↔ s.evmask = false ∧ t = s.pwmStep := by
  rw [exec, execEvPwm, whenEnabled_eq_next, enabled_pwm, next_eq_next_iff]

theorem exec_evNvnotify_eq_next_iff {s t : State} :
    exec .evNvnotify s = .next t ↔ (s.ie = true ∧ s.nvBusy = false ∧ s.evmask = false) ∧ t = s.notifyStep := by
  rw [exec, execEvNvnotify, whenEnabled_eq_next, enabled_nvNotify, next_eq_next_iff]

theorem exec_evNvdone_eq_next_iff {s t : State} :
    exec .evNvdone s = .next t ↔ (s.nvBusy = true ∧ s.nvPa.toNat < s.params.nvSize) ∧ t = s.nvComplete := by
  rw [exec, execEvNvdone, whenEnabled_eq_next, enabled_nvDone, and_assoc]
  refine and_congr_right fun _ => ?_
  split
  · next h => rw [next_eq_next_iff, and_iff_right h]
  · next h => simp [h]

/-! ### The updates commute -/

theorem scanBlind_tickStep (b o : Bool) : ScanBlind (fun s => s.tickStep b o) where
  recN _ := rfl
  desired _ := rfl
  programmed _ := rfl
  offset _ := rfl
  ie _ := rfl
  setScan _ _ _ := rfl
  programByte _ _ := rfl

theorem pwmStep_tickStep (s : State) (b o : Bool) : (s.tickStep b o).pwmStep = s.pwmStep.tickStep b o :=
  pwmStep_comm (f := fun s => s.tickStep b o) rfl ⟨rfl, rfl, rfl, rfl⟩ rfl fun _ _ _ _ => rfl

theorem pwmStep_nvComplete (s : State) : s.nvComplete.pwmStep = s.pwmStep.nvComplete :=
  pwmStep_comm (f := State.nvComplete) rfl ⟨rfl, rfl, rfl, rfl⟩ rfl fun _ _ _ _ => rfl

theorem pwmStep_setScan (s : State) (o : Byte) (e : Bool) : (s.setScan o e).pwmStep = s.pwmStep.setScan o e :=
  pwmStep_comm (f := fun s => s.setScan o e) rfl ⟨rfl, rfl, rfl, rfl⟩ rfl fun _ _ _ _ => rfl

theorem pwmStep_programByte (s : State) (k : Nat) : (s.programByte k).pwmStep = s.pwmStep.programByte k :=
  pwmStep_comm (f := fun s => s.programByte k) rfl ⟨rfl, rfl, rfl, rfl⟩ rfl fun _ _ _ _ => rfl

theorem scanBlind_pwmStep : ScanBlind State.pwmStep where
  recN s := by rw [pwmStep_frame]; rfl
  desired s := by rw [pwmStep_frame]; rfl
  programmed s := by rw [pwmStep_frame]; rfl
  offset s := by rw [pwmStep_frame]; rfl
  ie s := by rw [pwmStep_frame]; rfl
  setScan s o e := (pwmStep_setScan s o e).symm
  programByte s k := (pwmStep_programByte s k).symm

/-! ### The events commute -/

/-- From every state in which both have a step, each has a step after the other, and both orders reach one state. -/
def Commute (i j : Instr) : Prop :=
  ∀ s u v : State, exec i s = .next u → exec j s = .next v → ∃ t, exec j u = .next t ∧ exec i v = .next t

theorem Commute.symm {i j : Instr} (h : Commute i j) : Commute j i := fun s u v hu hv => by
  obtain ⟨t, hj, hi⟩ := h s v u hv hu
  exact ⟨t, hi, hj⟩

theorem commute_tick_pwm (b o : Bool) : Commute (.evTick b o) .evPwm := by
  intro s u v hu hv
  obtain ⟨hheld, rfl⟩ := exec_evTick_eq_next_iff.1 hu
  obtain ⟨-, rfl⟩ := exec_evPwm_eq_next_iff.1 hv
  exact ⟨s.pwmStep.tickStep b o, exec_evPwm_eq_next_iff.2 ⟨hheld, (pwmStep_tickStep s b o).symm⟩,
    exec_evTick_eq_next_iff.2 ⟨(State.pwmStep_evmask s).trans hheld, rfl⟩⟩

theorem notifyStep_evmask (s : State) : s.notifyStep.evmask = s.evmask := by
  obtain ⟨_, _, _, _, _, _, hframe⟩ := notifyStep_frame s
  rw [hframe]

theorem commute_tick_notify (b o : Bool) : Commute (.evTick b o) .evNvnotify := by
  intro s u v hu hv
  obtain ⟨hheld, rfl⟩ := exec_evTick_eq_next_iff.1 hu
  obtain ⟨henabled, rfl⟩ := exec_evNvnotify_eq_next_iff.1 hv
  exact ⟨s.notifyStep.tickStep b o,
    exec_evNvnotify_eq_next_iff.2 ⟨henabled, ((scanBlind_tickStep b o).notifyStep s).symm⟩,
    exec_evTick_eq_next_iff.2 ⟨(notifyStep_evmask s).trans hheld, rfl⟩⟩

theorem commute_tick_done (b o : Bool) : Commute (.evTick b o) .evNvdone := by
  intro s u v hu hv
  obtain ⟨hheld, rfl⟩ := exec_evTick_eq_next_iff.1 hu
  obtain ⟨henabled, rfl⟩ := exec_evNvdone_eq_next_iff.1 hv
  exact ⟨s.nvComplete.tickStep b o, exec_evNvdone_eq_next_iff.2 ⟨henabled, rfl⟩,
    exec_evTick_eq_next_iff.2 ⟨hheld, rfl⟩⟩

theorem commute_pwm_notify : Commute .evPwm .evNvnotify := by
  intro s u v hu hv
  obtain ⟨hheld, rfl⟩ := exec_evPwm_eq_next_iff.1 hu
  obtain ⟨henabled, rfl⟩ := exec_evNvnotify_eq_next_iff.1 hv
  refine ⟨s.notifyStep.pwmStep, exec_evNvnotify_eq_next_iff.2 ⟨?_, (scanBlind_pwmStep.notifyStep s).symm⟩,
    exec_evPwm_eq_next_iff.2 ⟨(notifyStep_evmask s).trans hheld, rfl⟩⟩
  rw [pwmStep_frame]
  exact henabled

theorem commute_pwm_done : Commute .evPwm .evNvdone := by
  intro s u v hu hv
  obtain ⟨hheld, rfl⟩ := exec_evPwm_eq_next_iff.1 hu
  obtain ⟨henabled, rfl⟩ := exec_evNvdone_eq_next_iff.1 hv
  refine ⟨s.nvComplete.pwmStep, exec_evNvdone_eq_next_iff.2 ⟨?_, pwmStep_nvComplete s⟩,
    exec_evPwm_eq_next_iff.2 ⟨hheld, rfl⟩⟩
  rw [pwmStep_frame]
  exact henabled

/-- A notification needs an idle store, a completion a busy one (R215). -/
theorem not_enabled_nvNotify_and_nvDone (s : State) : ¬ (s.enabled .nvNotify = true ∧ s.enabled .nvDone = true) := by
  rw [enabled_nvNotify, enabled_nvDone]
  rintro ⟨⟨-, hidle, -⟩, hbusy⟩
  exact Bool.noConfusion (hidle.symm.trans hbusy)

theorem commute_notify_done : Commute .evNvnotify .evNvdone := by
  intro s u v hu hv
  obtain ⟨hnotify, -⟩ := (whenEnabled_eq_next ..).1 hu
  obtain ⟨hdone, -⟩ := (whenEnabled_eq_next ..).1 hv
  exact absurd ⟨hnotify, hdone⟩ (not_enabled_nvNotify_and_nvDone s)

/-- Any two events of different kinds commute. -/
theorem commute_of_events {i j : Instr} {e e' : Event} (hi : eventOf i = some e) (hj : eventOf j = some e')
    (hne : e ≠ e') : Commute i j := by
  cases i with
  | evTick b o =>
    cases j with
    | evTick _ _ => cases hi; cases hj; exact absurd rfl hne
    | evPwm => exact commute_tick_pwm b o
    | evNvnotify => exact commute_tick_notify b o
    | evNvdone => exact commute_tick_done b o
    | _ => cases hj
  | evPwm =>
    cases j with
    | evTick b o => exact (commute_tick_pwm b o).symm
    | evPwm => cases hi; cases hj; exact absurd rfl hne
    | evNvnotify => exact commute_pwm_notify
    | evNvdone => exact commute_pwm_done
    | _ => cases hj
  | evNvnotify =>
    cases j with
    | evTick b o => exact (commute_tick_notify b o).symm
    | evPwm => exact commute_pwm_notify.symm
    | evNvnotify => cases hi; cases hj; exact absurd rfl hne
    | evNvdone => exact commute_notify_done
    | _ => cases hj
  | evNvdone =>
    cases j with
    | evTick b o => exact (commute_tick_done b o).symm
    | evPwm => exact commute_pwm_done.symm
    | evNvnotify => exact commute_notify_done.symm
    | evNvdone => cases hi; cases hj; exact absurd rfl hne
    | _ => cases hj
  | _ => cases hi

end Sys2Proof.Machine

namespace Sys2Proof

open Machine Safety

/-- Settles O47, by the two events' kinds. -/
theorem enabledEventsCommute : Obligations.EnabledEventsCommute :=
  ⟨not_enabled_nvNotify_and_nvDone, fun _ _ _ _ s u v hi hj hne => commute_of_events hi hj hne s u v⟩

end Sys2Proof
end

section
/-! PROOFS. Runs of TICKs: the Tick Counter counts them (R113), and each input is debounced by its own samples alone (R111,
R112). -/

namespace Sys2Proof.Machine

open Sys2Proof.Safety

/-! ### One input over a run of TICKs -/

/-- The input after the samples `rs`, taken one after another. -/
def debRun (T : Nat) (d : Deb) (rs : List Bool) : Deb := rs.foldl (debStep T) d

@[simp] theorem debRun_nil (T : Nat) (d : Deb) : debRun T d [] = d := rfl

@[simp] theorem debRun_cons (T : Nat) (d : Deb) (r : Bool) (rs : List Bool) :
    debRun T d (r :: rs) = debRun T (debStep T d r) rs := rfl

/-- A TICK takes one sample of either input. -/
theorem inputOf_tickStep (s : State) (p : Bool × Bool) (x : Input) :
    inputOf (s.tickStep p.1 p.2) x = debStep s.params.deglitchT (inputOf s x) (sampleOf s p x) := by
  cases x <;> rfl

/-- A TICK leaves the polarity, so what later samples are. -/
theorem sampleOf_tickStep (s : State) (b o : Bool) (p : Bool × Bool) (x : Input) :
    sampleOf (s.tickStep b o) p x = sampleOf s p x := by
  cases x <;> rfl

/-- A run of TICKs runs either input over its samples. -/
theorem exists_runAll_ticks_inputOf (pins : List (Bool × Bool)) {s : State} (hf : s.fault = none) (hs : s.evmask = false)
    (x : Input) :
    ∃ t, runAll (ticks pins) s = .next t ∧
      inputOf t x = debRun s.params.deglitchT (inputOf s x) (pins.map (sampleOf s · x)) := by
  induction pins generalizing s with
  | nil => exact ⟨s, rfl, rfl⟩
  | cons p pins ih =>
    obtain ⟨t, hrun, ht⟩ := ih (s := s.tickStep p.1 p.2) hf hs
    refine ⟨t, ?_, ?_⟩
    · rw [ticks, List.map_cons, runAll_cons_of_next hf (exec_evTick_of_unheld hs p.1 p.2)]
      exact hrun
    · rw [ht, inputOf_tickStep]
      simp only [sampleOf_tickStep, List.map_cons, debRun_cons]
      rfl

/-- In a state of the invariant an input's counter is below the threshold, and the threshold is a value of the counter. -/
theorem inputOf_cnt_lt {s : State} (hinv : Inv s) (x : Input) :
    (inputOf s x).cnt.toNat < s.params.deglitchT ∧ s.params.deglitchT ≤ 65535 := by
  obtain ⟨⟨⟨-, hmax, -⟩, -⟩, ⟨hbtn, hoff⟩, -⟩ := hinv
  cases x with
  | button => exact ⟨hbtn, hmax⟩
  | offSignal => exact ⟨hoff, hmax⟩

/-! ### Samples that disagree -/

section
variable {T : Nat} (hT : T ≤ 65535)
include hT

/-- A disagreeing sample before the threshold is counted (R101). -/
theorem debStep_counts {d : Deb} {r : Bool} (hr : r ≠ d.stable) (hd : d.cnt.toNat + 1 < T) :
    (debStep T d r).stable = d.stable ∧ (debStep T d r).cnt.toNat = d.cnt.toNat + 1 := by
  obtain ⟨-, -, -, hcount⟩ := debStep_rule T d r (by omega) hT
  exact (hcount hr (by omega)).symm

/-- The disagreeing sample that reaches the threshold flips the stable value (R101). -/
theorem debStep_flips {d : Deb} {r : Bool} (hr : r ≠ d.stable) (hd : d.cnt.toNat + 1 = T) :
    (debStep T d r).stable = !d.stable ∧ (debStep T d r).cnt = 0 := by
  obtain ⟨-, -, hflip, -⟩ := debStep_rule T d r (by omega) hT
  obtain ⟨hcnt, hstable⟩ := hflip hr hd
  exact ⟨hstable.trans (Bool.eq_not_of_ne hr), hcnt⟩

/-- A run of disagreeing samples is counted up to the threshold, and there it flips the stable value (R111). -/
theorem debRun_of_disagreeing {rs : List Bool} {d : Deb} (hd : d.cnt.toNat < T) (hrs : ∀ r ∈ rs, r ≠ d.stable) :
    (d.cnt.toNat + rs.length < T →
      (debRun T d rs).stable = d.stable ∧ (debRun T d rs).cnt.toNat = d.cnt.toNat + rs.length) ∧
    (d.cnt.toNat + rs.length = T → (debRun T d rs).stable = !d.stable ∧ (debRun T d rs).cnt = 0) := by
  induction rs generalizing d with
  | nil => exact ⟨fun _ => ⟨rfl, rfl⟩, fun h => absurd h hd.ne⟩
  | cons r rs ih =>
    obtain ⟨hr, hrs⟩ := List.forall_mem_cons.1 hrs
    rw [debRun_cons, List.length_cons]
    by_cases hlast : d.cnt.toNat + 1 = T
    · refine ⟨fun h => by omega, fun h => ?_⟩
      obtain rfl : rs = [] := List.eq_nil_of_length_eq_zero (by omega)
      exact debStep_flips hT hr hlast
    · obtain ⟨hstable, hcnt⟩ := debStep_counts hT hr (by omega)
      have hrest := ih (d := debStep T d r) (by omega) (by rwa [hstable])
      rw [hstable, hcnt, Nat.add_assoc, Nat.add_comm 1] at hrest
      exact hrest

/-! ### Samples that never settle -/

/-- While every `T` consecutive samples, those already counted included, hold one that agrees with the stable value, it stays:
the counter is the number of disagreeing samples just before (R112). -/
theorem debRun_of_unsettled {rs : List Bool} {d : Deb} (hd : d.cnt.toNat < T)
    (hrs : ∀ l, l <:+: List.replicate d.cnt.toNat (!d.stable) ++ rs → l.length = T → d.stable ∈ l) :
    (debRun T d rs).stable = d.stable := by
  induction rs generalizing d with
  | nil => rfl
  | cons r rs ih =>
    rw [debRun_cons]
    by_cases hr : r = d.stable
    · rw [debStep_of_agrees T hr]
      refine ih (Nat.zero_lt_of_lt hd) fun l hl => hrs l (hl.trans ?_)
      exact (List.infix_cons (List.infix_refl rs)).trans (List.suffix_append _ _).isInfix
    · have hwindow : List.replicate d.cnt.toNat (!d.stable) ++ r :: rs =
          List.replicate (d.cnt.toNat + 1) (!d.stable) ++ rs := by
        rw [Bool.eq_not_of_ne hr, List.replicate_succ', List.append_assoc, List.singleton_append]
      rw [hwindow] at hrs
      have hbelow : d.cnt.toNat + 1 ≠ T := fun hlast => by
        have hmem := hrs _ (List.prefix_append _ _).isInfix (List.length_replicate.trans hlast)
        exact absurd (List.eq_of_mem_replicate hmem) (Bool.not_ne_self _).symm
      obtain ⟨hstable, hcnt⟩ := debStep_counts hT hr (by omega)
      rw [ih (d := debStep T d r) (by omega) (by rwa [hstable, hcnt]), hstable]

end

end Sys2Proof.Machine

namespace Sys2Proof

open Machine Safety

/-- Settles O49: the run adds the number of its TICKs to the counter. -/
theorem tickCounterCountsTicks : Obligations.TickCounterCountsTicks := by
  intro pins s hf hs
  obtain ⟨t, hrun, -⟩ := exists_runAll_ticks pins hf hs
  have htick := runAll_tick_add hrun
  rw [countP_isTick_ticks] at htick
  refine ⟨t, hrun, ?_, fun hlt => ?_⟩
  · rw [htick, BitVec.toNat_add, BitVec.toNat_ofNat, Nat.add_mod_mod]
  · rw [duration, htick, add_sub_cancel_left, BitVec.toNat_ofNat, Nat.mod_eq_of_lt hlt]

/-- Settles O50: the input runs over its samples, all of which disagree. -/
theorem stableValueFlipsAtThreshold : Obligations.StableValueFlipsAtThreshold := by
  intro x pins s hinv hf hs hpins
  obtain ⟨t, hrun, ht⟩ := exists_runAll_ticks_inputOf pins hf hs x
  obtain ⟨hcnt, hmax⟩ := inputOf_cnt_lt hinv x
  have hsamples := debRun_of_disagreeing hmax hcnt (List.forall_mem_map.2 hpins)
  rw [← ht, List.length_map] at hsamples
  exact ⟨t, hrun, hsamples⟩

/-- Settles O51: the input runs over its samples, none counted yet, and a window of samples is one of TICKs. -/
theorem unsettledInputNeverFlips : Obligations.UnsettledInputNeverFlips := by
  intro x pins s hinv hf hs hzero hpins
  obtain ⟨t, hrun, ht⟩ := exists_runAll_ticks_inputOf pins hf hs x
  obtain ⟨hcnt, hmax⟩ := inputOf_cnt_lt hinv x
  refine ⟨t, hrun, ht ▸ debRun_of_unsettled hmax hcnt fun l hl hlen => ?_⟩
  rw [hzero] at hl
  obtain ⟨window, hwindow, rfl⟩ := List.infix_map_iff.1 hl
  obtain ⟨p, hp, hagrees⟩ := hpins window hwindow (by rwa [List.length_map] at hlen)
  exact List.mem_map.2 ⟨p, hp, hagrees⟩

end Sys2Proof
end

section
/-! PROOFS. Runs under the hold (R63, R202, R216): no held event is in them, and what their operations leave alone. -/

namespace Sys2Proof.Machine

open Sys2Proof.Safety

/-- What a run of the operations `is` under the hold leaves alone, from `s` to `t`, and which operations are not in it. -/
structure FrozenRun (is : List Instr) (s t : State) : Prop where
  debounce : SameDebounce s t
  led : SameLed s t
  programmed : t.programmed = s.programmed
  scan : (∀ i ∈ is, ∀ d, i ≠ .wrNvCtrl d) → t.offset = s.offset ∧ t.ie = s.ie
  nvPa : t.nvPa = s.nvPa
  nvPd : t.nvPd = s.nvPd
  idle : s.nvBusy = false → t.nvBusy = false
  busy : .evNvdone ∉ is → t.nvBusy = s.nvBusy
  noHeldEvent : ∀ i ∈ is, i ≠ .evNvnotify ∧ i ≠ .evPwm ∧ isTick i = false

theorem FrozenRun.nil (s : State) : FrozenRun [] s s where
  debounce := ⟨rfl, rfl, rfl⟩
  led := ⟨rfl, rfl, rfl, rfl⟩
  programmed := rfl
  scan _ := ⟨rfl, rfl⟩
  nvPa := rfl
  nvPd := rfl
  idle := id
  busy _ := rfl
  noHeldEvent := nofun

/-- One operation's freeze, then a run's. -/
theorem FrozenRun.cons {i : Instr} {is : List Instr} {s u t : State} (h : FrozenRun [i] s u) (hrest : FrozenRun is u t) :
    FrozenRun (i :: is) s t where
  debounce := by
    obtain ⟨htick, hbtn, hoff⟩ := h.debounce
    obtain ⟨htick', hbtn', hoff'⟩ := hrest.debounce
    exact ⟨htick'.trans htick, hbtn'.trans hbtn, hoff'.trans hoff⟩
  led := by
    obtain ⟨hduty, hlevel, hdir, hsub⟩ := h.led
    obtain ⟨hduty', hlevel', hdir', hsub'⟩ := hrest.led
    exact ⟨hduty'.trans hduty, hlevel'.trans hlevel, hdir'.trans hdir, hsub'.trans hsub⟩
  programmed := hrest.programmed.trans h.programmed
  scan hnone := by
    obtain ⟨hi, his⟩ := List.forall_mem_cons.1 hnone
    obtain ⟨hoffset, hie⟩ := h.scan (List.forall_mem_singleton.2 hi)
    obtain ⟨hoffset', hie'⟩ := hrest.scan his
    exact ⟨hoffset'.trans hoffset, hie'.trans hie⟩
  nvPa := hrest.nvPa.trans h.nvPa
  nvPd := hrest.nvPd.trans h.nvPd
  idle hidle := hrest.idle (h.idle hidle)
  busy hnone := by
    rw [List.mem_cons, not_or] at hnone
    obtain ⟨hi, his⟩ := hnone
    exact (hrest.busy his).trans (h.busy (List.mem_singleton.not.2 hi))
  noHeldEvent := List.forall_mem_cons.2 ⟨h.noHeldEvent i (List.mem_singleton.2 rfl), hrest.noHeldEvent⟩

/-- Under the hold no operation that has a step is a held event (R216). -/
theorem not_heldEvent_of_held {i : Instr} {s t : State} (hs : s.evmask = true) (h : exec i s = .next t) :
    i ≠ .evNvnotify ∧ i ≠ .evPwm ∧ isTick i = false := by
  refine ⟨?_, ?_, isTick_eq_false_of_held hs h⟩
  · rintro rfl
    rw [exec_evNvnotify_of_held hs] at h
    cases h
  · rintro rfl
    rw [exec_evPwm_of_held hs] at h
    cases h

/-- An operation other than a notification leaves the address and data of the write in progress, and starts no write; only a
completion ends one. -/
theorem exec_write_in_progress {i : Instr} {s t : State} (hi : i ≠ .evNvnotify) (h : exec i s = .next t) :
    t.nvPa = s.nvPa ∧ t.nvPd = s.nvPd ∧ (s.nvBusy = false → t.nvBusy = false) ∧
      (i ≠ .evNvdone → t.nvBusy = s.nvBusy) := by
  by_cases hdone : i = .evNvdone
  · subst hdone
    rw [exec_evNvdone_next h]
    exact ⟨rfl, rfl, fun _ => rfl, fun hne => absurd rfl hne⟩
  · obtain ⟨-, -, -, -, -, -, -, -, -, -, -, hstore, -⟩ := everyFieldHasOneWriter i s t h
    obtain ⟨-, hbusy, hpa, hpd⟩ := hstore hi hdone
    exact ⟨hpa, hpd, hbusy.trans, fun _ => hbusy⟩

/-- One operation under the hold freezes what it does not write itself. -/
theorem exec_frozen_of_held {i : Instr} {s t : State} (hs : s.evmask = true) (h : exec i s = .next t) :
    FrozenRun [i] s t := by
  obtain ⟨-, hdebounce, hled, -, -, -, -, -, -, hprogrammed, hscan, -⟩ := everyFieldHasOneWriter i s t h
  obtain ⟨hnotify, hpwm, htick⟩ := not_heldEvent_of_held hs h
  obtain ⟨hpa, hpd, hidle, hbusy⟩ := exec_write_in_progress hnotify h
  exact
    { debounce := hdebounce htick
      led := hled hpwm
      programmed := hprogrammed hnotify
      scan := fun hnone => (hscan hnotify (List.forall_mem_singleton.1 hnone)).2
      nvPa := hpa
      nvPd := hpd
      idle := hidle
      busy := fun hnone => hbusy (List.ne_of_not_mem_cons hnone).symm
      noHeldEvent := List.forall_mem_singleton.2 ⟨hnotify, hpwm, htick⟩ }

theorem runAll_frozen_of_held {is : List Instr} {s t : State} (hs : s.evmask = true)
    (his : ∀ i ∈ is, isWrEvmask i = false) (h : runAll is s = .next t) : FrozenRun is s t := by
  induction is generalizing s with
  | nil => cases h; exact .nil _
  | cons i is ih =>
    obtain ⟨hi, his⟩ := List.forall_mem_cons.1 his
    obtain ⟨-, u, hu, hr⟩ := runAll_cons_next h
    exact (exec_frozen_of_held hs hu).cons (ih ((exec_evmask_of_not_wrEvmask hi hu).trans hs) his hr)

end Sys2Proof.Machine

namespace Sys2Proof

open Machine Safety

/-- Settles O52: the hold stays set, so each operation of the run freezes what it does not write itself. -/
theorem holdFreezesTheUnits : Obligations.HoldFreezesTheUnits := by
  intro is s t hs his hrun
  obtain ⟨hheld, -⟩ := runAll_held hs his hrun
  have h := runAll_frozen_of_held hs his hrun
  exact ⟨hheld, h.debounce, h.led, h.programmed, h.scan, h.nvPa, h.nvPd, h.idle, h.busy, h.noHeldEvent⟩

end Sys2Proof
end
